-- ==== Sys2Proof/Word.lean ====
section
/-! DEFINITION. Bytes, byte strings and n-bit words (00_scope.md R5, R6; 40_word_arithmetic.md R90, R99). -/

namespace Sys2Proof

/-- A byte: 8 bits (R6). -/
abbrev Byte := BitVec 8

/-- A byte string: a finite sequence of bytes indexed from 0 (R6). -/
abbrev Bytes := List Byte

/-- A Word of width `n`: an unsigned n-bit integer (R90). The bits above `n` that wider storage would
carry do not exist here, as R90 and 92_eei_decisions.md D26 allow (log 18). -/
abbrev Word (n : Nat) := BitVec n

/-- `mask(n) = 2^n - 1` as a number (R90). -/
def maskNat (n : Nat) : Nat := 2 ^ n - 1

/-- `mask(n)` as a Word: every bit set (R90). -/
def mask (n : Nat) : Word n := BitVec.ofNat n (maskNat n)

/-- The width of the storage integer that carries an n-bit word (R5, R99). -/
def storageWidth (n : Nat) : Nat :=
  if n ≤ 16 then 16 else if n ≤ 32 then 32 else 64

end Sys2Proof
end

