-- ==== Sys2Proof/Syntax.lean ====
section
/-! DEFINITION. The commands of the engine: one constructor per row of spec/opcode_table.json (30_encoding.md R70 to
R77), each with the operand buffers the command carries (20_memory.md R50, R51; log 11). -/

namespace Sys2Proof

/-- The two cipher families (30_encoding.md R73). -/
inductive Family where
  | simon
  | speck
  deriving DecidableEq, Repr

/-- The five modes of operation (30_encoding.md R75). -/
inductive Mode where
  | ecb
  | ctr
  | cbc
  | cfb
  | ofb
  deriving DecidableEq, Repr

/-- The direction of a run of the mode layer (44_mode_layer.md R191). -/
inductive Direction where
  | enc
  | dec
  deriving DecidableEq, Repr

/-- A transaction: the 16-bit command word and the operand buffers that go with it (30_encoding.md R70).
Which buffers a command carries is said by its word: `KEY` by an INIT, `IV` when IVP = 1, `CTR` when
CTRP = 1, `DIN` by ENCRYPT and DECRYPT (R71, R76); a buffer the command does not carry is not read. -/
structure Transaction where
  cmd : BitVec 16
  key : Bytes
  iv : Bytes
  ctr : Bytes
  din : Bytes
  deriving DecidableEq, Repr

/-- The commands. An INIT constructor stands for one (family, key/block pair, mode); its arguments are the
`KEY` buffer and the optional `IV` and `CTR` buffers, `none` where the command word has the presence bit
0 ("null", 20_memory.md R51). -/
inductive Instr where
  | initSimonK64B32Ecb (key : Bytes) (iv ctr : Option Bytes)
  | initSimonK64B32Ctr (key : Bytes) (iv ctr : Option Bytes)
  | initSimonK64B32Cbc (key : Bytes) (iv ctr : Option Bytes)
  | initSimonK64B32Cfb (key : Bytes) (iv ctr : Option Bytes)
  | initSimonK64B32Ofb (key : Bytes) (iv ctr : Option Bytes)
  | initSimonK72B48Ecb (key : Bytes) (iv ctr : Option Bytes)
  | initSimonK72B48Ctr (key : Bytes) (iv ctr : Option Bytes)
  | initSimonK72B48Cbc (key : Bytes) (iv ctr : Option Bytes)
  | initSimonK72B48Cfb (key : Bytes) (iv ctr : Option Bytes)
  | initSimonK72B48Ofb (key : Bytes) (iv ctr : Option Bytes)
  | initSimonK96B48Ecb (key : Bytes) (iv ctr : Option Bytes)
  | initSimonK96B48Ctr (key : Bytes) (iv ctr : Option Bytes)
  | initSimonK96B48Cbc (key : Bytes) (iv ctr : Option Bytes)
  | initSimonK96B48Cfb (key : Bytes) (iv ctr : Option Bytes)
  | initSimonK96B48Ofb (key : Bytes) (iv ctr : Option Bytes)
  | initSimonK96B64Ecb (key : Bytes) (iv ctr : Option Bytes)
  | initSimonK96B64Ctr (key : Bytes) (iv ctr : Option Bytes)
  | initSimonK96B64Cbc (key : Bytes) (iv ctr : Option Bytes)
  | initSimonK96B64Cfb (key : Bytes) (iv ctr : Option Bytes)
  | initSimonK96B64Ofb (key : Bytes) (iv ctr : Option Bytes)
  | initSimonK128B64Ecb (key : Bytes) (iv ctr : Option Bytes)
  | initSimonK128B64Ctr (key : Bytes) (iv ctr : Option Bytes)
  | initSimonK128B64Cbc (key : Bytes) (iv ctr : Option Bytes)
  | initSimonK128B64Cfb (key : Bytes) (iv ctr : Option Bytes)
  | initSimonK128B64Ofb (key : Bytes) (iv ctr : Option Bytes)
  | initSimonK96B96Ecb (key : Bytes) (iv ctr : Option Bytes)
  | initSimonK96B96Ctr (key : Bytes) (iv ctr : Option Bytes)
  | initSimonK96B96Cbc (key : Bytes) (iv ctr : Option Bytes)
  | initSimonK96B96Cfb (key : Bytes) (iv ctr : Option Bytes)
  | initSimonK96B96Ofb (key : Bytes) (iv ctr : Option Bytes)
  | initSimonK144B96Ecb (key : Bytes) (iv ctr : Option Bytes)
  | initSimonK144B96Ctr (key : Bytes) (iv ctr : Option Bytes)
  | initSimonK144B96Cbc (key : Bytes) (iv ctr : Option Bytes)
  | initSimonK144B96Cfb (key : Bytes) (iv ctr : Option Bytes)
  | initSimonK144B96Ofb (key : Bytes) (iv ctr : Option Bytes)
  | initSimonK128B128Ecb (key : Bytes) (iv ctr : Option Bytes)
  | initSimonK128B128Ctr (key : Bytes) (iv ctr : Option Bytes)
  | initSimonK128B128Cbc (key : Bytes) (iv ctr : Option Bytes)
  | initSimonK128B128Cfb (key : Bytes) (iv ctr : Option Bytes)
  | initSimonK128B128Ofb (key : Bytes) (iv ctr : Option Bytes)
  | initSimonK192B128Ecb (key : Bytes) (iv ctr : Option Bytes)
  | initSimonK192B128Ctr (key : Bytes) (iv ctr : Option Bytes)
  | initSimonK192B128Cbc (key : Bytes) (iv ctr : Option Bytes)
  | initSimonK192B128Cfb (key : Bytes) (iv ctr : Option Bytes)
  | initSimonK192B128Ofb (key : Bytes) (iv ctr : Option Bytes)
  | initSimonK256B128Ecb (key : Bytes) (iv ctr : Option Bytes)
  | initSimonK256B128Ctr (key : Bytes) (iv ctr : Option Bytes)
  | initSimonK256B128Cbc (key : Bytes) (iv ctr : Option Bytes)
  | initSimonK256B128Cfb (key : Bytes) (iv ctr : Option Bytes)
  | initSimonK256B128Ofb (key : Bytes) (iv ctr : Option Bytes)
  | initSpeckK64B32Ecb (key : Bytes) (iv ctr : Option Bytes)
  | initSpeckK64B32Ctr (key : Bytes) (iv ctr : Option Bytes)
  | initSpeckK64B32Cbc (key : Bytes) (iv ctr : Option Bytes)
  | initSpeckK64B32Cfb (key : Bytes) (iv ctr : Option Bytes)
  | initSpeckK64B32Ofb (key : Bytes) (iv ctr : Option Bytes)
  | initSpeckK72B48Ecb (key : Bytes) (iv ctr : Option Bytes)
  | initSpeckK72B48Ctr (key : Bytes) (iv ctr : Option Bytes)
  | initSpeckK72B48Cbc (key : Bytes) (iv ctr : Option Bytes)
  | initSpeckK72B48Cfb (key : Bytes) (iv ctr : Option Bytes)
  | initSpeckK72B48Ofb (key : Bytes) (iv ctr : Option Bytes)
  | initSpeckK96B48Ecb (key : Bytes) (iv ctr : Option Bytes)
  | initSpeckK96B48Ctr (key : Bytes) (iv ctr : Option Bytes)
  | initSpeckK96B48Cbc (key : Bytes) (iv ctr : Option Bytes)
  | initSpeckK96B48Cfb (key : Bytes) (iv ctr : Option Bytes)
  | initSpeckK96B48Ofb (key : Bytes) (iv ctr : Option Bytes)
  | initSpeckK96B64Ecb (key : Bytes) (iv ctr : Option Bytes)
  | initSpeckK96B64Ctr (key : Bytes) (iv ctr : Option Bytes)
  | initSpeckK96B64Cbc (key : Bytes) (iv ctr : Option Bytes)
  | initSpeckK96B64Cfb (key : Bytes) (iv ctr : Option Bytes)
  | initSpeckK96B64Ofb (key : Bytes) (iv ctr : Option Bytes)
  | initSpeckK128B64Ecb (key : Bytes) (iv ctr : Option Bytes)
  | initSpeckK128B64Ctr (key : Bytes) (iv ctr : Option Bytes)
  | initSpeckK128B64Cbc (key : Bytes) (iv ctr : Option Bytes)
  | initSpeckK128B64Cfb (key : Bytes) (iv ctr : Option Bytes)
  | initSpeckK128B64Ofb (key : Bytes) (iv ctr : Option Bytes)
  | initSpeckK96B96Ecb (key : Bytes) (iv ctr : Option Bytes)
  | initSpeckK96B96Ctr (key : Bytes) (iv ctr : Option Bytes)
  | initSpeckK96B96Cbc (key : Bytes) (iv ctr : Option Bytes)
  | initSpeckK96B96Cfb (key : Bytes) (iv ctr : Option Bytes)
  | initSpeckK96B96Ofb (key : Bytes) (iv ctr : Option Bytes)
  | initSpeckK144B96Ecb (key : Bytes) (iv ctr : Option Bytes)
  | initSpeckK144B96Ctr (key : Bytes) (iv ctr : Option Bytes)
  | initSpeckK144B96Cbc (key : Bytes) (iv ctr : Option Bytes)
  | initSpeckK144B96Cfb (key : Bytes) (iv ctr : Option Bytes)
  | initSpeckK144B96Ofb (key : Bytes) (iv ctr : Option Bytes)
  | initSpeckK128B128Ecb (key : Bytes) (iv ctr : Option Bytes)
  | initSpeckK128B128Ctr (key : Bytes) (iv ctr : Option Bytes)
  | initSpeckK128B128Cbc (key : Bytes) (iv ctr : Option Bytes)
  | initSpeckK128B128Cfb (key : Bytes) (iv ctr : Option Bytes)
  | initSpeckK128B128Ofb (key : Bytes) (iv ctr : Option Bytes)
  | initSpeckK192B128Ecb (key : Bytes) (iv ctr : Option Bytes)
  | initSpeckK192B128Ctr (key : Bytes) (iv ctr : Option Bytes)
  | initSpeckK192B128Cbc (key : Bytes) (iv ctr : Option Bytes)
  | initSpeckK192B128Cfb (key : Bytes) (iv ctr : Option Bytes)
  | initSpeckK192B128Ofb (key : Bytes) (iv ctr : Option Bytes)
  | initSpeckK256B128Ecb (key : Bytes) (iv ctr : Option Bytes)
  | initSpeckK256B128Ctr (key : Bytes) (iv ctr : Option Bytes)
  | initSpeckK256B128Cbc (key : Bytes) (iv ctr : Option Bytes)
  | initSpeckK256B128Cfb (key : Bytes) (iv ctr : Option Bytes)
  | initSpeckK256B128Ofb (key : Bytes) (iv ctr : Option Bytes)
  /-- `ENCRYPT` (R221): operand buffer DIN. -/
  | encrypt (din : Bytes)
  /-- `DECRYPT` (R222): operand buffer DIN. -/
  | decrypt (din : Bytes)
  deriving DecidableEq, Repr

end Sys2Proof
end

