-- ==== Sys2Proof/Machine/ConfigTable.lean ====
section
/-! DEFINITION. The configuration table and its lookup RESOLVE (41_config_table.md R110 to R135). The values are the spec's own
rows, which it supplies from general knowledge (93_implementation_defined.md G1; log 22). -/

namespace Sys2Proof.Machine

/-- The parameters only one family has: Simon's constant-sequence id (R112 to R121) and Speck's two rotation
amounts (R133). `alpha` and `beta` of a Simon row and `zid` of a Speck row hold no value (R134, R122 to
R131), so the record has no place for them. -/
inductive FamilyParams where
  | simon (zid : Nat)
  | speck (alpha beta : Nat)
  deriving DecidableEq, Repr

/-- The resolved Configuration record (R110): key and block size in bits, word size `n`, key words `m`,
rounds `T`, block and key size in bytes, and the family's own parameters. -/
structure Configuration where
  K : Nat
  B : Nat
  n : Nat
  m : Nat
  T : Nat
  Bb : Nat
  Kb : Nat
  params : FamilyParams
  deriving DecidableEq, Repr

/-- The ten published (key_size_bits, block_size_bits) pairs, by `CFG` (30_encoding.md R74); `none` for 10
to 15 (R132). -/
def pairOf (cfg : BitVec 4) : Option (Nat × Nat) :=
  match cfg.toNat with
  | 0 => some (64, 32)
  | 1 => some (72, 48)
  | 2 => some (96, 48)
  | 3 => some (96, 64)
  | 4 => some (128, 64)
  | 5 => some (96, 96)
  | 6 => some (144, 96)
  | 7 => some (128, 128)
  | 8 => some (192, 128)
  | 9 => some (256, 128)
  | _ => none

/-- Simon's rounds `T` and sequence id `zid`, by `CFG` (R112 to R121). -/
def simonRow (cfg : BitVec 4) : Nat × Nat :=
  match cfg.toNat with
  | 0 => (32, 0)
  | 1 => (36, 0)
  | 2 => (36, 1)
  | 3 => (42, 2)
  | 4 => (44, 3)
  | 5 => (52, 2)
  | 6 => (54, 3)
  | 7 => (68, 2)
  | 8 => (69, 3)
  | _ => (72, 4)

/-- Speck's rounds `T`, by `CFG` (R122 to R131). -/
def speckRow (cfg : BitVec 4) : Nat :=
  match cfg.toNat with
  | 0 => 22
  | 1 => 22
  | 2 => 23
  | 3 => 26
  | 4 => 27
  | 5 => 28
  | 6 => 29
  | 7 => 32
  | 8 => 33
  | _ => 34

/-- Speck's rotation amounts `(alpha, beta)`, by word size (R133). -/
def speckRotations (n : Nat) : Nat × Nat := if n = 16 then (7, 2) else (8, 3)

/-- Rounds and family parameters of one row of the table. -/
def rowOf (f : Family) (cfg : BitVec 4) (n : Nat) : Nat × FamilyParams :=
  match f with
  | .simon => ((simonRow cfg).1, .simon (simonRow cfg).2)
  | .speck => (speckRow cfg, .speck (speckRotations n).1 (speckRotations n).2)

/-- `RESOLVE(family, cfg)` (R110, R111); `none` is its one failure, UnsupportedConfiguration (R132). -/
def resolve (f : Family) (cfg : BitVec 4) : Option Configuration :=
  match pairOf cfg with
  | none => none
  | some (K, B) =>
    let n := B / 2
    some { K := K, B := B, n := n, m := K / n, T := (rowOf f cfg n).1, Bb := B / 8, Kb := K / 8,
           params := (rowOf f cfg n).2 }

end Sys2Proof.Machine
end

