-- ==== Sys2Proof/Machine/Operands.lean ====
section
/-! DEFINITION. Operand buffers: the access primitives, byte order, and the reading of blocks and key words
(20_memory.md R50 to R57, R64). -/

namespace Sys2Proof.Machine

/-- `MemRead(buf, off, len)`: the bytes `buf[off .. off+len)`; no value outside the buffer (R64). -/
def memRead (buf : Bytes) (off len : Nat) : Option Bytes :=
  if off + len ≤ buf.length then some ((buf.drop off).take len) else none

/-- `MemWrite(buf, off, len, v)`: the buffer with those bytes set to `v`; no value outside the buffer or
where `v` is not `len` bytes long (R64). -/
def memWrite (buf : Bytes) (off len : Nat) (v : Bytes) : Option Bytes :=
  if v.length = len ∧ off + len ≤ buf.length then some (buf.take off ++ v ++ buf.drop (off + len)) else none

/-- The number a byte string holds, the byte at offset 0 least significant (R52). -/
def leNat : Bytes → Nat
  | [] => 0
  | b :: bs => b.toNat + 256 * leNat bs

/-- The number a byte string holds, the byte at offset 0 most significant (R55, 44_mode_layer.md R202). -/
def beNat (s : Bytes) : Nat := leNat s.reverse

/-- The `len`-byte string `t` with `t[k] = (v >> 8*(len-1-k)) & 0xff` (44_mode_layer.md R202). -/
def natToBe (len v : Nat) : Bytes :=
  (List.range len).map (fun k => BitVec.ofNat 8 (v >>> (8 * (len - 1 - k))))

/-- `BytesToWord(s, n)`: little-endian within a word (R52). -/
def bytesToWord (n : Nat) (s : Bytes) : Word n := BitVec.ofNat n (leNat s)

/-- `WordToBytes(w, n)`: `s[k] = w[8k+7 : 8k]` for `k` in `0 .. n/8-1` (R52). -/
def wordToBytes {n : Nat} (w : Word n) : Bytes :=
  (List.range (n / 8)).map (fun k => w.extractLsb' (8 * k) 8)

/-- `BlockToWords(b, n)`: the pair `(x, y)`; the first `n/8` bytes are `y`, the last `n/8` bytes `x` (R53). -/
def blockToWords (n : Nat) (b : Bytes) : Word n × Word n :=
  (bytesToWord n ((b.drop (n / 8)).take (n / 8)), bytesToWord n (b.take (n / 8)))

/-- `WordsToBlock(x, y, n) = WordToBytes(y, n) ++ WordToBytes(x, n)` (R53). -/
def wordsToBlock {n : Nat} (p : Word n × Word n) : Bytes := wordToBytes p.2 ++ wordToBytes p.1

/-- `count` words of a buffer from word index `j` on: `KW[j] = BytesToWord(MemRead(KEY, j*n/8, n/8), n)`
(R54, 45_context_commands.md R220). -/
def readWords (n : Nat) (buf : Bytes) : Nat → Nat → Option (List (Word n))
  | 0, _ => some []
  | count + 1, j =>
    match memRead buf (j * (n / 8)) (n / 8), readWords n buf count (j + 1) with
    | some b, some ws => some (bytesToWord n b :: ws)
    | _, _ => none

/-- Bytewise exclusive-or of two byte strings of one length, `XOR_BLOCK` (44_mode_layer.md R203). -/
def xorBlock (a b : Bytes) : Bytes := List.zipWith (· ^^^ ·) a b

end Sys2Proof.Machine
end

