-- ==== Sys2Proof/Machine/WordOps.lean ====
section
/-! DEFINITION. Word arithmetic (40_word_arithmetic.md R91 to R96): the six operations the datapath is built from. On n-bit
vectors the masking of every result is done by the type (R90). -/

namespace Sys2Proof.Machine

/-- `ROTL(w, r, n)`: rotate left, the amount reduced modulo `n` (R91). -/
def rotl {n : Nat} (w : Word n) (r : Nat) : Word n :=
  let s := r % n
  if s = 0 then w else (w <<< s) ||| (w >>> (n - s))

/-- `ROTR(w, r, n)`: rotate right, the amount reduced modulo `n` (R92). -/
def rotr {n : Nat} (w : Word n) (r : Nat) : Word n :=
  let s := r % n
  if s = 0 then w else (w >>> s) ||| (w <<< (n - s))

/-- `ADD(a, b, n)`: addition modulo `2^n` (R93). -/
def addW {n : Nat} (a b : Word n) : Word n := a + b

/-- `SUB(a, b, n)`: subtraction modulo `2^n` (R94). -/
def subW {n : Nat} (a b : Word n) : Word n := a - b

/-- `XOR(a, b)`: bitwise exclusive-or (R95). -/
def xorW {n : Nat} (a b : Word n) : Word n := a ^^^ b

/-- `AND(a, b)`: bitwise and (R96). -/
def andW {n : Nat} (a b : Word n) : Word n := a &&& b

end Sys2Proof.Machine
end

