-- ==== Sys2Proof/Machine/Rounds.lean ====
section
/-! DEFINITION. The round transform and its inverse, and the single-block transforms E and D (43_round_transform.md R160 to
R172). A pair is `(x, y)`, the content of the working registers `X` and `Y`. -/

namespace Sys2Proof.Machine

/-- `SIMON_F(x, n)`: the amounts 1, 8, 2 are constants of every width (R160, R134). -/
def simonF {n : Nat} (x : Word n) : Word n := xorW (andW (rotl x 1) (rotl x 8)) (rotl x 2)

/-- `SIMON_RF(x, y, k, n)`: one forward Simon round (R161). -/
def simonRF {n : Nat} (p : Word n × Word n) (k : Word n) : Word n × Word n :=
  (xorW (xorW p.2 (simonF p.1)) k, p.1)

/-- `SIMON_RI(x', y', k, n)`: one inverse Simon round (R162). -/
def simonRI {n : Nat} (p : Word n × Word n) (k : Word n) : Word n × Word n :=
  (p.2, xorW (xorW p.1 (simonF p.2)) k)

/-- `SPECK_RF(x, y, k, c)`: one forward Speck round; `y'` uses the new `x` (R165). -/
def speckRF {n : Nat} (alpha beta : Nat) (p : Word n × Word n) (k : Word n) : Word n × Word n :=
  let x' := xorW (addW (rotr p.1 alpha) p.2) k
  (x', xorW (rotl p.2 beta) x')

/-- `SPECK_RI(x', y', k, c)`: one inverse Speck round; `x` uses the recovered `y` (R166). -/
def speckRI {n : Nat} (alpha beta : Nat) (p : Word n × Word n) (k : Word n) : Word n × Word n :=
  let y := rotr (xorW p.2 p.1) beta
  (rotl (subW (xorW p.1 k) y) alpha, y)

/-- `SIMON_ENC(x, y)`: the rounds with `RND` running up over the subkeys `ks = RK[0 .. T-1]` (R163). -/
def simonEnc {n : Nat} (ks : List (Word n)) (p : Word n × Word n) : Word n × Word n :=
  ks.foldl simonRF p

/-- `SIMON_DEC(x, y)`: the inverse rounds, `RND` running down (R164). -/
def simonDec {n : Nat} (ks : List (Word n)) (p : Word n × Word n) : Word n × Word n :=
  ks.reverse.foldl simonRI p

/-- `SPECK_ENC(x, y)` (R167). -/
def speckEnc {n : Nat} (alpha beta : Nat) (ks : List (Word n)) (p : Word n × Word n) : Word n × Word n :=
  ks.foldl (speckRF alpha beta) p

/-- `SPECK_DEC(x, y)` (R168). -/
def speckDec {n : Nat} (alpha beta : Nat) (ks : List (Word n)) (p : Word n × Word n) : Word n × Word n :=
  ks.reverse.foldl (speckRI alpha beta) p

/-- `ENC_ENTRY`: the encrypt entry point of the dispatch pair, a function of family and width (R170, R27). -/
def encEntry {n : Nat} (params : FamilyParams) (ks : List (Word n)) (p : Word n × Word n) : Word n × Word n :=
  match params with
  | .simon _ => simonEnc ks p
  | .speck alpha beta => speckEnc alpha beta ks p

/-- `DEC_ENTRY`: the decrypt entry point of the dispatch pair (R170, R27). -/
def decEntry {n : Nat} (params : FamilyParams) (ks : List (Word n)) (p : Word n × Word n) : Word n × Word n :=
  match params with
  | .simon _ => simonDec ks p
  | .speck alpha beta => speckDec alpha beta ks p

/-- `E(b)`: the single-block encryption under a configuration and its subkeys (R169). -/
def blockE (c : Configuration) (ks : List (Word c.n)) (b : Bytes) : Bytes :=
  wordsToBlock (encEntry c.params ks (blockToWords c.n b))

/-- `D(b)`: the single-block decryption (R169). -/
def blockD (c : Configuration) (ks : List (Word c.n)) (b : Bytes) : Bytes :=
  wordsToBlock (decEntry c.params ks (blockToWords c.n b))

end Sys2Proof.Machine
end

