-- ==== Sys2Proof/Machine/Modes.lean ====
section
/-! DEFINITION. The mode layer: the ten mode steps and the block loop MODE_RUN (44_mode_layer.md R190 to R206). A step takes
`CHAIN` and an input block and gives the output block and the new `CHAIN`; `E` and `D` are the
single-block transforms of the context. -/

namespace Sys2Proof.Machine

/-- `INC_BE(s)`: add one to a byte string read as a big-endian number, wrapping (R202). -/
def incBe (s : Bytes) : Bytes := natToBe s.length ((beNat s + 1) % 256 ^ s.length)

/-- `ECB_ENC(I)` (R192). -/
def ecbEnc (E : Bytes → Bytes) (chain inp : Bytes) : Bytes × Bytes := (E inp, chain)

/-- `ECB_DEC(I)` (R193). -/
def ecbDec (D : Bytes → Bytes) (chain inp : Bytes) : Bytes × Bytes := (D inp, chain)

/-- `CBC_ENC(I)` (R194). -/
def cbcEnc (E : Bytes → Bytes) (chain inp : Bytes) : Bytes × Bytes :=
  let out := E (xorBlock inp chain)
  (out, out)

/-- `CBC_DEC(I)`: the new chain is the ciphertext block as read (R195). -/
def cbcDec (D : Bytes → Bytes) (chain inp : Bytes) : Bytes × Bytes := (xorBlock (D inp) chain, inp)

/-- `CFB_ENC(I)` (R196). -/
def cfbEnc (E : Bytes → Bytes) (chain inp : Bytes) : Bytes × Bytes :=
  let out := xorBlock inp (E chain)
  (out, out)

/-- `CFB_DEC(I)`: uses `E`; the new chain is the ciphertext block as read (R197). -/
def cfbDec (E : Bytes → Bytes) (chain inp : Bytes) : Bytes × Bytes := (xorBlock inp (E chain), inp)

/-- `OFB_ENC(I)` (R198). -/
def ofbEnc (E : Bytes → Bytes) (chain inp : Bytes) : Bytes × Bytes := (xorBlock inp (E chain), E chain)

/-- `OFB_DEC(I)`: identical to OFB_ENC (R199). -/
def ofbDec (E : Bytes → Bytes) (chain inp : Bytes) : Bytes × Bytes := (xorBlock inp (E chain), E chain)

/-- `CTR_ENC(I)` (R200). -/
def ctrEnc (E : Bytes → Bytes) (chain inp : Bytes) : Bytes × Bytes := (xorBlock inp (E chain), incBe chain)

/-- `CTR_DEC(I)`: identical to CTR_ENC (R201). -/
def ctrDec (E : Bytes → Bytes) (chain inp : Bytes) : Bytes × Bytes := (xorBlock inp (E chain), incBe chain)

/-- The step table `STEP[mode][dir]` (R206). -/
def modeStep (md : Mode) (dir : Direction) (E D : Bytes → Bytes) : Bytes → Bytes → Bytes × Bytes :=
  match md, dir with
  | .ecb, .enc => ecbEnc E
  | .ecb, .dec => ecbDec D
  | .ctr, .enc => ctrEnc E
  | .ctr, .dec => ctrDec E
  | .cbc, .enc => cbcEnc E
  | .cbc, .dec => cbcDec D
  | .cfb, .enc => cfbEnc E
  | .cfb, .dec => cfbDec E
  | .ofb, .enc => ofbEnc E
  | .ofb, .dec => ofbDec E

/-- The block loop from block `blk` on, `count` blocks: read block `blk` of DIN, run the step, write block
`blk` of DOUT (R191). `none` where a buffer access would be out of bounds (20_memory.md R64). -/
def modeLoop (step : Bytes → Bytes → Bytes × Bytes) (Bb : Nat) (din : Bytes) :
    Nat → Nat → Bytes → Bytes → Option (Bytes × Bytes)
  | 0, _, chain, dout => some (dout, chain)
  | count + 1, blk, chain, dout =>
    match memRead din (blk * Bb) Bb with
    | none => none
    | some inp =>
      let r := step chain inp
      match memWrite dout (blk * Bb) Bb r.1 with
      | none => none
      | some dout' => modeLoop step Bb din count (blk + 1) r.2 dout'

/-- `MODE_RUN(dir, DIN)`: all `len/Bb` blocks in ascending order; gives DOUT and the final `CHAIN` (R191).
What DOUT holds before its blocks are written is never seen (log 19). -/
def modeRun (step : Bytes → Bytes → Bytes × Bytes) (Bb : Nat) (chain din : Bytes) : Option (Bytes × Bytes) :=
  modeLoop step Bb din (din.length / Bb) 0 chain (List.replicate din.length (0#8))

end Sys2Proof.Machine
end

