-- ==== Sys2Proof/Config.lean ====
section
/-! DEFINITION. The free values: contents the spec leaves at "any value" (93_implementation_defined.md U5, U6, U7).
Each is a constant with no body, so nothing can be proved of the value it gives. The first argument is
the model's counter `State.fresh`, so that each command leaves values of its own. -/

namespace Sys2Proof.Config

/-- What `RK[i]`, `i >= T`, holds after an INIT: "hold no value" (10_state.md R25, U5; log 6). -/
opaque freeRoundKey : Nat → Nat → BitVec 64

/-- What byte `k` of `CHAIN` holds where no rule gives it a value: beyond byte `Bb - 1`, and every byte
after an ECB INIT (10_state.md R26, U7; log 7). -/
opaque freeChainByte : Nat → Nat → Byte

/-- The residue of `X` between commands (10_state.md R28, U6; log 8). -/
opaque freeX : Nat → BitVec 64

/-- The residue of `Y` between commands (10_state.md R28, U6; log 8). -/
opaque freeY : Nat → BitVec 64

/-- The residue of entry `j` of the Speck schedule scratch `L` (10_state.md R29, U6; log 8). -/
opaque freeL : Nat → Nat → BitVec 64

/-- The residue of the round index `RND` (10_state.md R30, U6; log 8). -/
opaque freeRnd : Nat → BitVec 7

/-- The residue of the block index `BLK` (10_state.md R30, U6; log 8). -/
opaque freeBlk : Nat → Nat

end Sys2Proof.Config
end

