-- ==== Sys2Proof/Machine/Selectors.lean ====
section
/-! DEFINITION. The numbers of the selectors: family (30_encoding.md R73) and mode (R75). -/

namespace Sys2Proof.Machine

/-- The family's code, 0 = Simon, 1 = Speck (R73). -/
def familyCode : Family → BitVec 1
  | .simon => 0#1
  | .speck => 1#1

/-- The family a code stands for (R73); every code stands for one. -/
def familyOf (b : BitVec 1) : Family := if b = 0#1 then .simon else .speck

/-- The mode's code (R75). -/
def modeCode : Mode → BitVec 3
  | .ecb => 0#3
  | .ctr => 1#3
  | .cbc => 2#3
  | .cfb => 3#3
  | .ofb => 4#3

/-- The mode a code stands for; 5 to 7 are reserved (R75). -/
def modeOf (b : BitVec 3) : Option Mode :=
  match b.toNat with
  | 0 => some .ecb
  | 1 => some .ctr
  | 2 => some .cbc
  | 3 => some .cfb
  | 4 => some .ofb
  | _ => none

end Sys2Proof.Machine
end

