-- ==== Sys2Proof/Decode.lean ====
section
/-! DEFINITION. The decoder, total on every command word, and after it the encoder (30_encoding.md R71 to R78, R80, R82). -/

namespace Sys2Proof

open Sys2Proof.Machine

/-- Why a command word encodes no command (R78): the two rejections, by name. -/
inductive Reject where
  /-- OP = 3, MODE 5 to 7, or a nonzero reserved bit (R78, 60_exceptions.md R246). -/
  | illegalCommand
  /-- CFG 10 to 15 (R78, 60_exceptions.md R241). -/
  | unsupportedConfiguration
  deriving DecidableEq, Repr

/-- What decoding a transaction gives: an instruction or a rejection. -/
inductive Decoded where
  | instr (i : Instr)
  | rejected (r : Reject)
  deriving DecidableEq, Repr

/-! ### The fields of a command word (R71), bit 0 the least significant -/

/-- `OP`, bits 1:0 (R72). -/
def opField (w : BitVec 16) : BitVec 2 := w.extractLsb' 0 2

/-- `FAMILY`, bit 2 (R73). -/
def familyField (w : BitVec 16) : BitVec 1 := w.extractLsb' 2 1

/-- `CFG`, bits 6:3 (R74). -/
def cfgField (w : BitVec 16) : BitVec 4 := w.extractLsb' 3 4

/-- `MODE`, bits 9:7 (R75). -/
def modeField (w : BitVec 16) : BitVec 3 := w.extractLsb' 7 3

/-- `IVP`, bit 10 (R76). -/
def ivpField (w : BitVec 16) : BitVec 1 := w.extractLsb' 10 1

/-- `CTRP`, bit 11 (R76). -/
def ctrpField (w : BitVec 16) : BitVec 1 := w.extractLsb' 11 1

/-- The reserved bits 15:12 of format I (R71). -/
def reservedI (w : BitVec 16) : BitVec 4 := w.extractLsb' 12 4

/-- The reserved bits 15:2 of format X (R71). -/
def reservedX (w : BitVec 16) : BitVec 14 := w.extractLsb' 2 14

/-- An operand that a presence bit announces: the buffer when the bit is 1, null when it is 0 (R51, R76). -/
def presentWhen (p : BitVec 1) (b : Bytes) : Option Bytes := if p = 1#1 then some b else none

/-- A Simon row of the opcode table, by CFG and MODE; `none` for CFG 10 to 15. -/
def initSimonRow (cfg : BitVec 4) (md : Mode) : Option (Bytes → Option Bytes → Option Bytes → Instr) :=
  match cfg.toNat, md with
  | 0, .ecb => some .initSimonK64B32Ecb
  | 0, .ctr => some .initSimonK64B32Ctr
  | 0, .cbc => some .initSimonK64B32Cbc
  | 0, .cfb => some .initSimonK64B32Cfb
  | 0, .ofb => some .initSimonK64B32Ofb
  | 1, .ecb => some .initSimonK72B48Ecb
  | 1, .ctr => some .initSimonK72B48Ctr
  | 1, .cbc => some .initSimonK72B48Cbc
  | 1, .cfb => some .initSimonK72B48Cfb
  | 1, .ofb => some .initSimonK72B48Ofb
  | 2, .ecb => some .initSimonK96B48Ecb
  | 2, .ctr => some .initSimonK96B48Ctr
  | 2, .cbc => some .initSimonK96B48Cbc
  | 2, .cfb => some .initSimonK96B48Cfb
  | 2, .ofb => some .initSimonK96B48Ofb
  | 3, .ecb => some .initSimonK96B64Ecb
  | 3, .ctr => some .initSimonK96B64Ctr
  | 3, .cbc => some .initSimonK96B64Cbc
  | 3, .cfb => some .initSimonK96B64Cfb
  | 3, .ofb => some .initSimonK96B64Ofb
  | 4, .ecb => some .initSimonK128B64Ecb
  | 4, .ctr => some .initSimonK128B64Ctr
  | 4, .cbc => some .initSimonK128B64Cbc
  | 4, .cfb => some .initSimonK128B64Cfb
  | 4, .ofb => some .initSimonK128B64Ofb
  | 5, .ecb => some .initSimonK96B96Ecb
  | 5, .ctr => some .initSimonK96B96Ctr
  | 5, .cbc => some .initSimonK96B96Cbc
  | 5, .cfb => some .initSimonK96B96Cfb
  | 5, .ofb => some .initSimonK96B96Ofb
  | 6, .ecb => some .initSimonK144B96Ecb
  | 6, .ctr => some .initSimonK144B96Ctr
  | 6, .cbc => some .initSimonK144B96Cbc
  | 6, .cfb => some .initSimonK144B96Cfb
  | 6, .ofb => some .initSimonK144B96Ofb
  | 7, .ecb => some .initSimonK128B128Ecb
  | 7, .ctr => some .initSimonK128B128Ctr
  | 7, .cbc => some .initSimonK128B128Cbc
  | 7, .cfb => some .initSimonK128B128Cfb
  | 7, .ofb => some .initSimonK128B128Ofb
  | 8, .ecb => some .initSimonK192B128Ecb
  | 8, .ctr => some .initSimonK192B128Ctr
  | 8, .cbc => some .initSimonK192B128Cbc
  | 8, .cfb => some .initSimonK192B128Cfb
  | 8, .ofb => some .initSimonK192B128Ofb
  | 9, .ecb => some .initSimonK256B128Ecb
  | 9, .ctr => some .initSimonK256B128Ctr
  | 9, .cbc => some .initSimonK256B128Cbc
  | 9, .cfb => some .initSimonK256B128Cfb
  | 9, .ofb => some .initSimonK256B128Ofb
  | _, _ => none

/-- A Speck row of the opcode table, by CFG and MODE; `none` for CFG 10 to 15. -/
def initSpeckRow (cfg : BitVec 4) (md : Mode) : Option (Bytes → Option Bytes → Option Bytes → Instr) :=
  match cfg.toNat, md with
  | 0, .ecb => some .initSpeckK64B32Ecb
  | 0, .ctr => some .initSpeckK64B32Ctr
  | 0, .cbc => some .initSpeckK64B32Cbc
  | 0, .cfb => some .initSpeckK64B32Cfb
  | 0, .ofb => some .initSpeckK64B32Ofb
  | 1, .ecb => some .initSpeckK72B48Ecb
  | 1, .ctr => some .initSpeckK72B48Ctr
  | 1, .cbc => some .initSpeckK72B48Cbc
  | 1, .cfb => some .initSpeckK72B48Cfb
  | 1, .ofb => some .initSpeckK72B48Ofb
  | 2, .ecb => some .initSpeckK96B48Ecb
  | 2, .ctr => some .initSpeckK96B48Ctr
  | 2, .cbc => some .initSpeckK96B48Cbc
  | 2, .cfb => some .initSpeckK96B48Cfb
  | 2, .ofb => some .initSpeckK96B48Ofb
  | 3, .ecb => some .initSpeckK96B64Ecb
  | 3, .ctr => some .initSpeckK96B64Ctr
  | 3, .cbc => some .initSpeckK96B64Cbc
  | 3, .cfb => some .initSpeckK96B64Cfb
  | 3, .ofb => some .initSpeckK96B64Ofb
  | 4, .ecb => some .initSpeckK128B64Ecb
  | 4, .ctr => some .initSpeckK128B64Ctr
  | 4, .cbc => some .initSpeckK128B64Cbc
  | 4, .cfb => some .initSpeckK128B64Cfb
  | 4, .ofb => some .initSpeckK128B64Ofb
  | 5, .ecb => some .initSpeckK96B96Ecb
  | 5, .ctr => some .initSpeckK96B96Ctr
  | 5, .cbc => some .initSpeckK96B96Cbc
  | 5, .cfb => some .initSpeckK96B96Cfb
  | 5, .ofb => some .initSpeckK96B96Ofb
  | 6, .ecb => some .initSpeckK144B96Ecb
  | 6, .ctr => some .initSpeckK144B96Ctr
  | 6, .cbc => some .initSpeckK144B96Cbc
  | 6, .cfb => some .initSpeckK144B96Cfb
  | 6, .ofb => some .initSpeckK144B96Ofb
  | 7, .ecb => some .initSpeckK128B128Ecb
  | 7, .ctr => some .initSpeckK128B128Ctr
  | 7, .cbc => some .initSpeckK128B128Cbc
  | 7, .cfb => some .initSpeckK128B128Cfb
  | 7, .ofb => some .initSpeckK128B128Ofb
  | 8, .ecb => some .initSpeckK192B128Ecb
  | 8, .ctr => some .initSpeckK192B128Ctr
  | 8, .cbc => some .initSpeckK192B128Cbc
  | 8, .cfb => some .initSpeckK192B128Cfb
  | 8, .ofb => some .initSpeckK192B128Ofb
  | 9, .ecb => some .initSpeckK256B128Ecb
  | 9, .ctr => some .initSpeckK256B128Ctr
  | 9, .cbc => some .initSpeckK256B128Cbc
  | 9, .cfb => some .initSpeckK256B128Cfb
  | 9, .ofb => some .initSpeckK256B128Ofb
  | _, _ => none

/-- The row of an INIT word with legal fields. -/
def initRow (f : Family) (cfg : BitVec 4) (md : Mode) : Option (Bytes → Option Bytes → Option Bytes → Instr) :=
  match f with
  | .simon => initSimonRow cfg md
  | .speck => initSpeckRow cfg md

/-- Decoding of a format I word (R71, R78): reserved bits and MODE are tested before CFG (R247). -/
def decodeInit (t : Transaction) : Decoded :=
  if reservedI t.cmd ≠ 0#4 then .rejected .illegalCommand
  else
    match modeOf (modeField t.cmd) with
    | none => .rejected .illegalCommand
    | some md =>
      match initRow (familyOf (familyField t.cmd)) (cfgField t.cmd) md with
      | none => .rejected .unsupportedConfiguration
      | some mk => .instr (mk t.key (presentWhen (ivpField t.cmd) t.iv) (presentWhen (ctrpField t.cmd) t.ctr))

/-- Decoding of a format X word, `i` being the command its OP names (R71, R78). -/
def decodeX (w : BitVec 16) (i : Instr) : Decoded :=
  if reservedX w ≠ 0#14 then .rejected .illegalCommand else .instr i

/-- The decoder: OP alone tells the format (R80), and every one of the 65536 words has a result (R78). -/
def decode (t : Transaction) : Decoded :=
  match (opField t.cmd).toNat with
  | 0 => decodeInit t
  | 1 => decodeX t.cmd (.encrypt t.din)
  | 2 => decodeX t.cmd (.decrypt t.din)
  | _ => .rejected .illegalCommand

/-! ### The encoder -/

/-- The fields of a command: what its constructor stands for, with its operands. -/
inductive CommandFields where
  | init (f : Family) (cfg : BitVec 4) (md : Mode) (key : Bytes) (iv ctr : Option Bytes)
  | encrypt (din : Bytes)
  | decrypt (din : Bytes)
  deriving DecidableEq, Repr

/-- The fields of each constructor, from the rows of spec/opcode_table.json. -/
def commandFields : Instr → CommandFields
  | .initSimonK64B32Ecb key iv ctr => .init .simon 0#4 .ecb key iv ctr
  | .initSimonK64B32Ctr key iv ctr => .init .simon 0#4 .ctr key iv ctr
  | .initSimonK64B32Cbc key iv ctr => .init .simon 0#4 .cbc key iv ctr
  | .initSimonK64B32Cfb key iv ctr => .init .simon 0#4 .cfb key iv ctr
  | .initSimonK64B32Ofb key iv ctr => .init .simon 0#4 .ofb key iv ctr
  | .initSimonK72B48Ecb key iv ctr => .init .simon 1#4 .ecb key iv ctr
  | .initSimonK72B48Ctr key iv ctr => .init .simon 1#4 .ctr key iv ctr
  | .initSimonK72B48Cbc key iv ctr => .init .simon 1#4 .cbc key iv ctr
  | .initSimonK72B48Cfb key iv ctr => .init .simon 1#4 .cfb key iv ctr
  | .initSimonK72B48Ofb key iv ctr => .init .simon 1#4 .ofb key iv ctr
  | .initSimonK96B48Ecb key iv ctr => .init .simon 2#4 .ecb key iv ctr
  | .initSimonK96B48Ctr key iv ctr => .init .simon 2#4 .ctr key iv ctr
  | .initSimonK96B48Cbc key iv ctr => .init .simon 2#4 .cbc key iv ctr
  | .initSimonK96B48Cfb key iv ctr => .init .simon 2#4 .cfb key iv ctr
  | .initSimonK96B48Ofb key iv ctr => .init .simon 2#4 .ofb key iv ctr
  | .initSimonK96B64Ecb key iv ctr => .init .simon 3#4 .ecb key iv ctr
  | .initSimonK96B64Ctr key iv ctr => .init .simon 3#4 .ctr key iv ctr
  | .initSimonK96B64Cbc key iv ctr => .init .simon 3#4 .cbc key iv ctr
  | .initSimonK96B64Cfb key iv ctr => .init .simon 3#4 .cfb key iv ctr
  | .initSimonK96B64Ofb key iv ctr => .init .simon 3#4 .ofb key iv ctr
  | .initSimonK128B64Ecb key iv ctr => .init .simon 4#4 .ecb key iv ctr
  | .initSimonK128B64Ctr key iv ctr => .init .simon 4#4 .ctr key iv ctr
  | .initSimonK128B64Cbc key iv ctr => .init .simon 4#4 .cbc key iv ctr
  | .initSimonK128B64Cfb key iv ctr => .init .simon 4#4 .cfb key iv ctr
  | .initSimonK128B64Ofb key iv ctr => .init .simon 4#4 .ofb key iv ctr
  | .initSimonK96B96Ecb key iv ctr => .init .simon 5#4 .ecb key iv ctr
  | .initSimonK96B96Ctr key iv ctr => .init .simon 5#4 .ctr key iv ctr
  | .initSimonK96B96Cbc key iv ctr => .init .simon 5#4 .cbc key iv ctr
  | .initSimonK96B96Cfb key iv ctr => .init .simon 5#4 .cfb key iv ctr
  | .initSimonK96B96Ofb key iv ctr => .init .simon 5#4 .ofb key iv ctr
  | .initSimonK144B96Ecb key iv ctr => .init .simon 6#4 .ecb key iv ctr
  | .initSimonK144B96Ctr key iv ctr => .init .simon 6#4 .ctr key iv ctr
  | .initSimonK144B96Cbc key iv ctr => .init .simon 6#4 .cbc key iv ctr
  | .initSimonK144B96Cfb key iv ctr => .init .simon 6#4 .cfb key iv ctr
  | .initSimonK144B96Ofb key iv ctr => .init .simon 6#4 .ofb key iv ctr
  | .initSimonK128B128Ecb key iv ctr => .init .simon 7#4 .ecb key iv ctr
  | .initSimonK128B128Ctr key iv ctr => .init .simon 7#4 .ctr key iv ctr
  | .initSimonK128B128Cbc key iv ctr => .init .simon 7#4 .cbc key iv ctr
  | .initSimonK128B128Cfb key iv ctr => .init .simon 7#4 .cfb key iv ctr
  | .initSimonK128B128Ofb key iv ctr => .init .simon 7#4 .ofb key iv ctr
  | .initSimonK192B128Ecb key iv ctr => .init .simon 8#4 .ecb key iv ctr
  | .initSimonK192B128Ctr key iv ctr => .init .simon 8#4 .ctr key iv ctr
  | .initSimonK192B128Cbc key iv ctr => .init .simon 8#4 .cbc key iv ctr
  | .initSimonK192B128Cfb key iv ctr => .init .simon 8#4 .cfb key iv ctr
  | .initSimonK192B128Ofb key iv ctr => .init .simon 8#4 .ofb key iv ctr
  | .initSimonK256B128Ecb key iv ctr => .init .simon 9#4 .ecb key iv ctr
  | .initSimonK256B128Ctr key iv ctr => .init .simon 9#4 .ctr key iv ctr
  | .initSimonK256B128Cbc key iv ctr => .init .simon 9#4 .cbc key iv ctr
  | .initSimonK256B128Cfb key iv ctr => .init .simon 9#4 .cfb key iv ctr
  | .initSimonK256B128Ofb key iv ctr => .init .simon 9#4 .ofb key iv ctr
  | .initSpeckK64B32Ecb key iv ctr => .init .speck 0#4 .ecb key iv ctr
  | .initSpeckK64B32Ctr key iv ctr => .init .speck 0#4 .ctr key iv ctr
  | .initSpeckK64B32Cbc key iv ctr => .init .speck 0#4 .cbc key iv ctr
  | .initSpeckK64B32Cfb key iv ctr => .init .speck 0#4 .cfb key iv ctr
  | .initSpeckK64B32Ofb key iv ctr => .init .speck 0#4 .ofb key iv ctr
  | .initSpeckK72B48Ecb key iv ctr => .init .speck 1#4 .ecb key iv ctr
  | .initSpeckK72B48Ctr key iv ctr => .init .speck 1#4 .ctr key iv ctr
  | .initSpeckK72B48Cbc key iv ctr => .init .speck 1#4 .cbc key iv ctr
  | .initSpeckK72B48Cfb key iv ctr => .init .speck 1#4 .cfb key iv ctr
  | .initSpeckK72B48Ofb key iv ctr => .init .speck 1#4 .ofb key iv ctr
  | .initSpeckK96B48Ecb key iv ctr => .init .speck 2#4 .ecb key iv ctr
  | .initSpeckK96B48Ctr key iv ctr => .init .speck 2#4 .ctr key iv ctr
  | .initSpeckK96B48Cbc key iv ctr => .init .speck 2#4 .cbc key iv ctr
  | .initSpeckK96B48Cfb key iv ctr => .init .speck 2#4 .cfb key iv ctr
  | .initSpeckK96B48Ofb key iv ctr => .init .speck 2#4 .ofb key iv ctr
  | .initSpeckK96B64Ecb key iv ctr => .init .speck 3#4 .ecb key iv ctr
  | .initSpeckK96B64Ctr key iv ctr => .init .speck 3#4 .ctr key iv ctr
  | .initSpeckK96B64Cbc key iv ctr => .init .speck 3#4 .cbc key iv ctr
  | .initSpeckK96B64Cfb key iv ctr => .init .speck 3#4 .cfb key iv ctr
  | .initSpeckK96B64Ofb key iv ctr => .init .speck 3#4 .ofb key iv ctr
  | .initSpeckK128B64Ecb key iv ctr => .init .speck 4#4 .ecb key iv ctr
  | .initSpeckK128B64Ctr key iv ctr => .init .speck 4#4 .ctr key iv ctr
  | .initSpeckK128B64Cbc key iv ctr => .init .speck 4#4 .cbc key iv ctr
  | .initSpeckK128B64Cfb key iv ctr => .init .speck 4#4 .cfb key iv ctr
  | .initSpeckK128B64Ofb key iv ctr => .init .speck 4#4 .ofb key iv ctr
  | .initSpeckK96B96Ecb key iv ctr => .init .speck 5#4 .ecb key iv ctr
  | .initSpeckK96B96Ctr key iv ctr => .init .speck 5#4 .ctr key iv ctr
  | .initSpeckK96B96Cbc key iv ctr => .init .speck 5#4 .cbc key iv ctr
  | .initSpeckK96B96Cfb key iv ctr => .init .speck 5#4 .cfb key iv ctr
  | .initSpeckK96B96Ofb key iv ctr => .init .speck 5#4 .ofb key iv ctr
  | .initSpeckK144B96Ecb key iv ctr => .init .speck 6#4 .ecb key iv ctr
  | .initSpeckK144B96Ctr key iv ctr => .init .speck 6#4 .ctr key iv ctr
  | .initSpeckK144B96Cbc key iv ctr => .init .speck 6#4 .cbc key iv ctr
  | .initSpeckK144B96Cfb key iv ctr => .init .speck 6#4 .cfb key iv ctr
  | .initSpeckK144B96Ofb key iv ctr => .init .speck 6#4 .ofb key iv ctr
  | .initSpeckK128B128Ecb key iv ctr => .init .speck 7#4 .ecb key iv ctr
  | .initSpeckK128B128Ctr key iv ctr => .init .speck 7#4 .ctr key iv ctr
  | .initSpeckK128B128Cbc key iv ctr => .init .speck 7#4 .cbc key iv ctr
  | .initSpeckK128B128Cfb key iv ctr => .init .speck 7#4 .cfb key iv ctr
  | .initSpeckK128B128Ofb key iv ctr => .init .speck 7#4 .ofb key iv ctr
  | .initSpeckK192B128Ecb key iv ctr => .init .speck 8#4 .ecb key iv ctr
  | .initSpeckK192B128Ctr key iv ctr => .init .speck 8#4 .ctr key iv ctr
  | .initSpeckK192B128Cbc key iv ctr => .init .speck 8#4 .cbc key iv ctr
  | .initSpeckK192B128Cfb key iv ctr => .init .speck 8#4 .cfb key iv ctr
  | .initSpeckK192B128Ofb key iv ctr => .init .speck 8#4 .ofb key iv ctr
  | .initSpeckK256B128Ecb key iv ctr => .init .speck 9#4 .ecb key iv ctr
  | .initSpeckK256B128Ctr key iv ctr => .init .speck 9#4 .ctr key iv ctr
  | .initSpeckK256B128Cbc key iv ctr => .init .speck 9#4 .cbc key iv ctr
  | .initSpeckK256B128Cfb key iv ctr => .init .speck 9#4 .cfb key iv ctr
  | .initSpeckK256B128Ofb key iv ctr => .init .speck 9#4 .ofb key iv ctr
  | .encrypt din => .encrypt din
  | .decrypt din => .decrypt din

/-- A presence bit: 1 when the operand is supplied (R76, R82). -/
def presenceBit (b : Option Bytes) : BitVec 1 := if b.isSome then 1#1 else 0#1

/-- `CMD = 0 | FAMILY<<2 | CFG<<3 | MODE<<7 | IVP<<10 | CTRP<<11` (R82). -/
def initWord (family : BitVec 1) (cfg : BitVec 4) (mode : BitVec 3) (ivp ctrp : BitVec 1) : BitVec 16 :=
  family.setWidth 16 <<< 2 ||| cfg.setWidth 16 <<< 3 ||| mode.setWidth 16 <<< 7 |||
    ivp.setWidth 16 <<< 10 ||| ctrp.setWidth 16 <<< 11

/-- The transaction of an INIT with these selectors and operands; a null operand has no bytes (R51). -/
def initTransaction (f : Family) (cfg : BitVec 4) (md : Mode) (key : Bytes) (iv ctr : Option Bytes) : Transaction :=
  { cmd := initWord (familyCode f) cfg (modeCode md) (presenceBit iv) (presenceBit ctr)
    key := key, iv := iv.getD [], ctr := ctr.getD [], din := [] }

/-- The transaction of a command (R82). -/
def encode (i : Instr) : Transaction :=
  match commandFields i with
  | .init f cfg md key iv ctr => initTransaction f cfg md key iv ctr
  | .encrypt din => { cmd := 0x0001#16, key := [], iv := [], ctr := [], din := din }
  | .decrypt din => { cmd := 0x0002#16, key := [], iv := [], ctr := [], din := din }

/-- The `CFG` index of a (key, block) pair, if it is one of the ten (R74). -/
def cfgIndex (keyBits blockBits : Nat) : Option (BitVec 4) :=
  ((List.range 10).map (BitVec.ofNat 4)).find? (fun c => pairOf c = some (keyBits, blockBits))

/-- The host-level call `Init(selector, mode, key_bytes, iv, counter)` as a transaction (R82). A pair that is
not in the table has no index: the host uses any `CFG` in 10 to 15, here the argument `unpublished`. -/
def encodeInitCall (f : Family) (keyBits blockBits : Nat) (md : Mode) (key : Bytes) (iv ctr : Option Bytes)
    (unpublished : BitVec 4) : Transaction :=
  initTransaction f ((cfgIndex keyBits blockBits).getD unpublished) md key iv ctr

/-! ### The host's question about a row of the opcode table -/

/-- Operand buffers of zeros for a bare command word (log 12): a key of the length the word's configuration
asks for, a chain operand of one block, and a message of 48 bytes, a whole number of blocks of every
block size. -/
def tableTransaction (w : BitVec 16) : Transaction :=
  let zeros := fun (len : Nat) => List.replicate len (0#8)
  match resolve (familyOf (familyField w)) (cfgField w) with
  | none => { cmd := w, key := [], iv := [], ctr := [], din := zeros 48 }
  | some c => { cmd := w, key := zeros c.Kb, iv := zeros c.Bb, ctr := zeros c.Bb, din := zeros 48 }

/-- The instruction the decoder reads from the command word `w`, the bits above `nbits` being 0; its operand
buffers are those of `tableTransaction`. A command word has 16 bits (R71), so a longer one is none. -/
def decodeTableWord (nbits w : Nat) : Option Instr :=
  if w % 2 ^ nbits < 2 ^ 16 then
    match decode (tableTransaction (BitVec.ofNat 16 (w % 2 ^ nbits))) with
    | .instr i => some i
    | .rejected _ => none
  else none

end Sys2Proof
end

