-- ==== Sys2Proof/Machine/Flags.lean ====
section
/-! DEFINITION. The engine has no condition codes or flags (10_state.md R31); its only status is the status code of a
response (30_encoding.md R79, 60_exceptions.md R240). -/

namespace Sys2Proof.Machine

/-- The statuses a command can respond with (R79, R240). Code 7 is never produced, so it has no name. -/
inductive Status where
  | ok
  | unsupportedConfiguration
  | invalidKeyLength
  | missingChainValue
  | invalidLength
  | notInitialized
  | illegalCommand
  deriving DecidableEq, Repr

/-- The 3-bit code of a status (R79). -/
def statusCode : Status → BitVec 3
  | .ok => 0#3
  | .unsupportedConfiguration => 1#3
  | .invalidKeyLength => 2#3
  | .missingChainValue => 3#3
  | .invalidLength => 4#3
  | .notInitialized => 5#3
  | .illegalCommand => 6#3

/-- The status a rejected command word is answered with (R78). -/
def rejectStatus : Reject → Status
  | .illegalCommand => .illegalCommand
  | .unsupportedConfiguration => .unsupportedConfiguration

end Sys2Proof.Machine
end

