-- ==== Sys2Proof/Machine/KeySchedule.lean ====
section
/-! DEFINITION. The key schedules KS_SIMON and KS_SPECK (42_key_schedule.md R140 to R151). The recurrences and the z sequences are
the spec's own rules, which it supplies from general knowledge (93_implementation_defined.md G2 to G4;
log 22). -/

namespace Sys2Proof.Machine

/-- The Simon constant `c = mask(n) ^ 3` (R142). -/
def simonConst (n : Nat) : Word n := xorW (mask n) (BitVec.ofNat n 3)

/-- The five z sequences as 62-bit numbers: bit `t` of `zInteger j` is `Z[j][t]` (R143). -/
def zInteger : Nat → Nat
  | 0 => 0x19c3522fb386a45f
  | 1 => 0x16864fb8ad0c9f71
  | 2 => 0x3369f885192c0ef5
  | 3 => 0x3c2ce51207a635db
  | _ => 0x3dc94c3a046d678b

/-- `Z[j][t]` as the number 0 or 1 (R143). -/
def zBit (j t : Nat) : Nat := (zInteger j >>> t) % 2

/-- The Simon subkey `k[i]` from the subkeys before it, `k = k[0 .. i-1]` (R144 to R147). -/
def simonNext {n : Nat} (m zid i : Nat) (k : List (Word n)) : Word n :=
  let t0 := rotr (k.getD (i - 1) 0) 3
  let t1 := if m = 4 then xorW t0 (k.getD (i - 3) 0) else t0
  let t2 := xorW t1 (rotr t1 1)
  xorW (xorW (xorW (simonConst n) (BitVec.ofNat n (zBit zid ((i - m) % 62)))) (k.getD (i - m) 0)) t2

/-- `count` more Simon subkeys, each at the index where the list ends (R147). -/
def simonExtend {n : Nat} (m zid : Nat) : Nat → List (Word n) → List (Word n)
  | 0, k => k
  | count + 1, k => simonExtend m zid count (k ++ [simonNext m zid k.length k])

/-- `KS_SIMON(KW, c)`: the key words, then `i` from `m` to `T-1` (R147). -/
def ksSimon {n : Nat} (m T zid : Nat) (kw : List (Word n)) : List (Word n) :=
  simonExtend m zid (T - m) kw

/-- Steps `i`, `i+1`, … of the Speck schedule, `count` of them, on the sequences `L` and `k`:
`(L[i+m-1], k[i+1]) = SPECK_RF(L[i], k[i], i, c)`, each new word at the end of its sequence (R148). -/
def speckExtend {n : Nat} (alpha beta : Nat) :
    Nat → Nat → List (Word n) → List (Word n) → List (Word n) × List (Word n)
  | 0, _, L, k => (L, k)
  | count + 1, i, L, k =>
    let r := speckRF alpha beta (L.getD i 0, k.getD i 0) (BitVec.ofNat n i)
    speckExtend alpha beta count (i + 1) (L ++ [r.1]) (k ++ [r.2])

/-- `KS_SPECK(KW, c)`: `k[0] = KW[0]`, `L[j] = KW[j+1]`, then `T-1` steps from `i = 0` (R148, R141). -/
def ksSpeck {n : Nat} (T alpha beta : Nat) (kw : List (Word n)) : List (Word n) :=
  (speckExtend alpha beta (T - 1) 0 (kw.drop 1) (kw.take 1)).2

/-- The key schedule of a configuration; the family alone decides which algorithm runs (R140). -/
def keySchedule (c : Configuration) (kw : List (Word c.n)) : List (Word c.n) :=
  match c.params with
  | .simon zid => ksSimon c.m c.T zid kw
  | .speck alpha beta => ksSpeck c.T alpha beta kw

end Sys2Proof.Machine
end

