-- ==== Sys2Proof/Machine/State.lean ====
section
/-! DEFINITION. The state of one engine instance (10_state.md R20 to R37), the model's place for the host's side of the
interface, and the ways a step can stop. -/

namespace Sys2Proof.Machine

/-- The working registers of the datapath (10_state.md R28 to R30). They are not persistent: every rule
writes them before it reads them, and between commands they hold no value, so a meaning carries them
as local values and a successful command leaves free values here (log 8). -/
structure Work where
  /-- `X` (R28). -/
  x : BitVec 64
  /-- `Y` (R28). -/
  y : BitVec 64
  /-- The Speck schedule scratch `L[0 .. m+T-3]`; `m+T-2` is at most 36 (R29). -/
  l : Vector (BitVec 64) 36
  /-- The round index `RND`, 7 bits (R30). -/
  rnd : BitVec 7
  /-- The block index `BLK`, unbounded (R30). -/
  blk : Nat
  deriving DecidableEq, Repr

/-- A response: the 3-bit status code and, for ENCRYPT and DECRYPT on success, the output buffer
(30_encoding.md R79). -/
structure Response where
  status : BitVec 3
  dout : Option Bytes
  deriving DecidableEq, Repr

structure State where
  /-- `CTX.VALID` (R21): 1 when a context exists. -/
  valid : BitVec 1
  /-- `CTX.FAMILY` (R22). -/
  family : BitVec 1
  /-- `CTX.CFG` (R23). -/
  cfg : BitVec 4
  /-- `CTX.MODE` (R24). -/
  mode : BitVec 3
  /-- `RK[0..71]` (R25): 72 entries of 64 bits, each carrying an n-bit word. -/
  rk : Vector (BitVec 64) 72
  /-- `CHAIN` (R26): 16 bytes of storage, `CHAIN[0]` first. -/
  chain : Vector Byte 16
  /-- The working registers (R28 to R30). -/
  work : Work
  /-- `MAX_BLOCKS` (00_scope.md R5, D20): unset, or the most blocks one ENCRYPT or DECRYPT may carry. A
  parameter of the platform that no command writes (log 13). -/
  maxBlocks : Option Nat
  /-- The commands the host has still to issue, the next one first (45_context_commands.md R224, R228;
  log 9). -/
  pending : List Transaction
  /-- The responses returned so far, the oldest first: what the host observes of a run (R228; log 9). -/
  responses : List Response
  /-- The model's own counter: it indexes the free values of Config.lean (log 5). -/
  fresh : Nat
  deriving DecidableEq, Repr

/-- Why the model stops. No state a run reaches raises either (log 17). -/
inductive Fault where
  /-- Raised by ENCRYPT and DECRYPT when `CTX.VALID` is 1 but `CTX.CFG` or `CTX.MODE` holds a number that
  stands for nothing (R23, R24: "can never be stored"); a read of a field that holds no value is a fault
  of the model (R35). Safe. -/
  | contextHoldsNoValue
  /-- Raised where MemRead or MemWrite is called outside its buffer (20_memory.md R64: "A model should make
  an out-of-bounds call a fault of the model"). Safe. -/
  | bufferOutOfBounds
  deriving DecidableEq, Repr

/-- Why the model gives an instruction no meaning. -/
inductive Refusal where
  /-- Raised by no instruction: every row of the opcode table has its meaning. Safe. -/
  | notModelled (mnemonic : String)
  deriving DecidableEq, Repr

/-- What a meaning answers. -/
abbrev Result := Host.Outcome State Fault Refusal

/-- The working registers at reset: the spec gives them no value (R35); zero is a choice (log 4). -/
def Work.reset : Work :=
  { x := 0#64, y := 0#64, l := Vector.replicate 36 (0#64), rnd := 0#7, blk := 0 }

/-- The machine right after reset (10_state.md R35, 70_reset_and_hazards.md R270): `CTX.VALID = 0`, no
command in progress, nothing pending. The spec gives the other context fields no value; zero is a choice
(log 1, 2, 3). `MAX_BLOCKS` has its default, unset (R5). -/
def State.reset : State :=
  { valid := 0#1, family := 0#1, cfg := 0#4, mode := 0#3
    rk := Vector.replicate 72 (0#64), chain := Vector.replicate 16 (0#8)
    work := Work.reset, maxBlocks := none, pending := [], responses := [], fresh := 0 }

end Sys2Proof.Machine
end

