-- ==== Sys2Proof/Machine/Ops.lean ====
section
/-! DEFINITION. The shared operations on State: responding, the error response (the engine's only exception), reading the
context, and the commits of a successful command. -/

namespace Sys2Proof.Machine

/-- Return a response to the host (30_encoding.md R79). -/
def State.respond (s : State) (st : Status) (dout : Option Bytes) : State :=
  { s with responses := s.responses ++ [{ status := statusCode st, dout := dout }] }

/-- TAKING AN EXCEPTION: the command ends with an error status and no data, and nothing else changes
(60_exceptions.md R248). There is no return from it: the engine is idle afterwards (R249). -/
def State.raise (s : State) (st : Status) : State := s.respond st none

/-- The context as a command reads it: its selectors, the resolved Configuration (10_state.md R23), the
subkeys `RK[0 .. T-1]` as n-bit words (R25), and the `Bb` bytes of `CHAIN` (R26). -/
structure Context where
  family : Family
  cfg : BitVec 4
  mode : Mode
  conf : Configuration
  subkeys : List (Word conf.n)
  chain : Bytes
  deriving DecidableEq, Repr

/-- The subkeys a context's rounds read: `RK[0 .. T-1]`, the low n bits of each entry (R25, R32; log 18). -/
def subkeysOf (c : Configuration) (rk : Vector (BitVec 64) 72) : List (Word c.n) :=
  (rk.toList.take c.T).map (fun k => k.setWidth c.n)

/-- The guarded read of the context: no value while `CTX.VALID = 0` (R21, R35), and none for selectors that
stand for nothing (R23, R24). -/
def State.context? (s : State) : Option Context :=
  if s.valid = 0#1 then none
  else
    match resolve (familyOf s.family) s.cfg, modeOf s.mode with
    | some c, some md =>
      some { family := familyOf s.family, cfg := s.cfg, mode := md, conf := c, subkeys := subkeysOf c s.rk,
             chain := s.chain.toList.take c.Bb }
    | _, _ => none

/-- `RK` after an INIT: the subkeys zero-extended, and free values beyond them (42_key_schedule.md R150,
10_state.md R25; log 6). -/
def rkFile {n : Nat} (ks : List (Word n)) (fresh : Nat) : Vector (BitVec 64) 72 :=
  ⟨((List.range 72).map (fun i =>
      (ks[i]?.map (BitVec.setWidth 64)).getD (Config.freeRoundKey fresh i))).toArray, by simp⟩

/-- `CHAIN` holding the byte string `b`: free values in the bytes of storage beyond it (10_state.md R26;
log 7). With `b` empty it holds no value at all, as after an ECB INIT (D22). -/
def chainFile (b : Bytes) (fresh : Nat) : Vector Byte 16 :=
  ⟨((List.range 16).map (fun k => b[k]?.getD (Config.freeChainByte fresh k))).toArray, by simp⟩

/-- The working registers after a successful command: residues, all free (10_state.md R28 to R30,
70_reset_and_hazards.md R276; log 8). -/
def freeWork (fresh : Nat) : Work :=
  { x := Config.freeX fresh, y := Config.freeY fresh
    l := ⟨((List.range 36).map (Config.freeL fresh)).toArray, by simp⟩
    rnd := Config.freeRnd fresh, blk := Config.freeBlk fresh }

/-- A successful command leaves the working registers free and the free-value counter advanced (log 5, 8). -/
def State.retireWork (s : State) : State := { s with work := freeWork s.fresh, fresh := s.fresh + 1 }

/-- The commit of a successful INIT, all at once: every field of the context (45_context_commands.md R220,
10_state.md R36). `chain0` is `none` in ECB: `CHAIN` then holds no value. -/
def State.installContext (s : State) (f : Family) (cfg : BitVec 4) (md : Mode) {n : Nat} (ks : List (Word n))
    (chain0 : Option Bytes) : State :=
  { s with valid := 1#1, family := familyCode f, cfg := cfg, mode := modeCode md
           rk := rkFile ks s.fresh, chain := chainFile (chain0.getD []) s.fresh }

/-- The commit of a successful ENCRYPT or DECRYPT: `CHAIN` in every mode but ECB, which neither reads nor
writes it (10_state.md R26, R36; 44_mode_layer.md R192, R193). -/
def State.advanceChain (s : State) (md : Mode) (chain : Bytes) : State :=
  match md with
  | .ecb => s
  | .ctr | .cbc | .cfb | .ofb => { s with chain := chainFile chain s.fresh }

end Sys2Proof.Machine
end

