-- ==== Sys2Proof/Machine/Commands.lean ====
section
/-! DEFINITION. What the three commands share: INIT over any selectors, and ENCRYPT and DECRYPT over a direction
(45_context_commands.md R220 to R226). Each check is made in the order of 60_exceptions.md R247, and
nothing is written until all have passed. -/

namespace Sys2Proof.Machine

/-- What the chain operands of an INIT amount to (R220, 30_encoding.md R75, R76). -/
inductive ChainOperand where
  /-- The mode requires an operand that is absent or not one block long: MissingChainValue (R243). -/
  | missing
  /-- The mode requires none (ECB). -/
  | notRequired
  /-- The initial chain value. -/
  | value (b : Bytes)
  deriving DecidableEq, Repr

/-- A required chain operand: present and `Bb` bytes long (60_exceptions.md R243). `MemRead(·, 0, Bb)` of a
buffer of `Bb` bytes is the whole buffer. -/
def requiredBlock (Bb : Nat) (b : Option Bytes) : ChainOperand :=
  match b with
  | none => .missing
  | some v => if v.length = Bb then .value v else .missing

/-- The chain operand of a mode: the counter in CTR, the IV in CBC, CFB and OFB; the other one is ignored
(30_encoding.md R76). -/
def initialChain (md : Mode) (Bb : Nat) (iv ctr : Option Bytes) : ChainOperand :=
  match md with
  | .ecb => .notRequired
  | .ctr => requiredBlock Bb ctr
  | .cbc | .cfb | .ofb => requiredBlock Bb iv

/-- The work of an INIT whose checks have passed: key words, key schedule, commit, response (R220). -/
def initWork (f : Family) (cfg : BitVec 4) (md : Mode) (c : Configuration) (key : Bytes) (chain0 : Option Bytes)
    (s : State) : Result :=
  match readWords c.n key c.m 0 with
  | none => .fault .bufferOutOfBounds
  | some kw => .next (((s.installContext f cfg md (keySchedule c kw) chain0).retireWork).respond .ok none)

/-- `INIT` (R220). The reserved bits and MODE are legal here: the decoder rejects them (30_encoding.md
R78). -/
def initContext (f : Family) (cfg : BitVec 4) (md : Mode) (key : Bytes) (iv ctr : Option Bytes) (s : State) :
    Result :=
  match resolve f cfg with
  | none => .next (s.raise .unsupportedConfiguration)
  | some c =>
    if key.length ≠ c.Kb then .next (s.raise .invalidKeyLength)
    else
      match initialChain md c.Bb iv ctr with
      | .missing => .next (s.raise .missingChainValue)
      | .notRequired => initWork f cfg md c key none s
      | .value chain0 => initWork f cfg md c key (some chain0) s

/-- More blocks than `MAX_BLOCKS`, where it is set (00_scope.md R5, R221). -/
def tooManyBlocks (maxBlocks : Option Nat) (blocks : Nat) : Bool :=
  match maxBlocks with
  | none => false
  | some most => decide (most < blocks)

/-- The length check of ENCRYPT and DECRYPT fails: zero, not a multiple of the block size, or too many
blocks (60_exceptions.md R244). -/
def lengthInvalid (maxBlocks : Option Nat) (Bb len : Nat) : Bool :=
  decide (len = 0) || decide (len % Bb ≠ 0) || tooManyBlocks maxBlocks (len / Bb)

/-- The mode step of a context in one direction, with its own `E` and `D`. -/
def Context.step (x : Context) (dir : Direction) : Bytes → Bytes → Bytes × Bytes :=
  modeStep x.mode dir (blockE x.conf x.subkeys) (blockD x.conf x.subkeys)

/-- `ENCRYPT` and `DECRYPT` (R221, R222): the checks, then MODE_RUN, then the commit and the response. -/
def cryptMessage (dir : Direction) (din : Bytes) (s : State) : Result :=
  if s.valid = 0#1 then .next (s.raise .notInitialized)
  else
    match s.context? with
    | none => .fault .contextHoldsNoValue
    | some x =>
      if lengthInvalid s.maxBlocks x.conf.Bb din.length then .next (s.raise .invalidLength)
      else
        match modeRun (x.step dir) x.conf.Bb x.chain din with
        | none => .fault .bufferOutOfBounds
        | some (dout, chain) => .next (((s.advanceChain x.mode chain).retireWork).respond .ok (some dout))

end Sys2Proof.Machine
end

