-- ==== Sys2Proof/Machine/Crypt.lean ====
section
/-! DEFINITION. The commands ENCRYPT and DECRYPT (45_context_commands.md R221, R222). -/

namespace Sys2Proof.Machine

/-- `ENCRYPT` (R221). -/
def execEncrypt (din : Bytes) (s : State) : Result := cryptMessage .enc din s

/-- `DECRYPT` (R222). -/
def execDecrypt (din : Bytes) (s : State) : Result := cryptMessage .dec din s

end Sys2Proof.Machine
end

