-- ==== Sys2Proof/Machine/InitSimon.lean ====
section
/-! DEFINITION. The fifty INIT commands of the Simon family: each is INIT (45_context_commands.md R220) with the family, the
(key, block) pair and the mode its row of spec/opcode_table.json names. -/

namespace Sys2Proof.Machine

/-- `INIT.SIMON.K64B32.ECB` (R112). -/
def execInitSimonK64B32Ecb (key : Bytes) (iv ctr : Option Bytes) (s : State) : Result :=
  initContext .simon 0#4 .ecb key iv ctr s

/-- `INIT.SIMON.K64B32.CTR` (R112). -/
def execInitSimonK64B32Ctr (key : Bytes) (iv ctr : Option Bytes) (s : State) : Result :=
  initContext .simon 0#4 .ctr key iv ctr s

/-- `INIT.SIMON.K64B32.CBC` (R112). -/
def execInitSimonK64B32Cbc (key : Bytes) (iv ctr : Option Bytes) (s : State) : Result :=
  initContext .simon 0#4 .cbc key iv ctr s

/-- `INIT.SIMON.K64B32.CFB` (R112). -/
def execInitSimonK64B32Cfb (key : Bytes) (iv ctr : Option Bytes) (s : State) : Result :=
  initContext .simon 0#4 .cfb key iv ctr s

/-- `INIT.SIMON.K64B32.OFB` (R112). -/
def execInitSimonK64B32Ofb (key : Bytes) (iv ctr : Option Bytes) (s : State) : Result :=
  initContext .simon 0#4 .ofb key iv ctr s

/-- `INIT.SIMON.K72B48.ECB` (R113). -/
def execInitSimonK72B48Ecb (key : Bytes) (iv ctr : Option Bytes) (s : State) : Result :=
  initContext .simon 1#4 .ecb key iv ctr s

/-- `INIT.SIMON.K72B48.CTR` (R113). -/
def execInitSimonK72B48Ctr (key : Bytes) (iv ctr : Option Bytes) (s : State) : Result :=
  initContext .simon 1#4 .ctr key iv ctr s

/-- `INIT.SIMON.K72B48.CBC` (R113). -/
def execInitSimonK72B48Cbc (key : Bytes) (iv ctr : Option Bytes) (s : State) : Result :=
  initContext .simon 1#4 .cbc key iv ctr s

/-- `INIT.SIMON.K72B48.CFB` (R113). -/
def execInitSimonK72B48Cfb (key : Bytes) (iv ctr : Option Bytes) (s : State) : Result :=
  initContext .simon 1#4 .cfb key iv ctr s

/-- `INIT.SIMON.K72B48.OFB` (R113). -/
def execInitSimonK72B48Ofb (key : Bytes) (iv ctr : Option Bytes) (s : State) : Result :=
  initContext .simon 1#4 .ofb key iv ctr s

/-- `INIT.SIMON.K96B48.ECB` (R114). -/
def execInitSimonK96B48Ecb (key : Bytes) (iv ctr : Option Bytes) (s : State) : Result :=
  initContext .simon 2#4 .ecb key iv ctr s

/-- `INIT.SIMON.K96B48.CTR` (R114). -/
def execInitSimonK96B48Ctr (key : Bytes) (iv ctr : Option Bytes) (s : State) : Result :=
  initContext .simon 2#4 .ctr key iv ctr s

/-- `INIT.SIMON.K96B48.CBC` (R114). -/
def execInitSimonK96B48Cbc (key : Bytes) (iv ctr : Option Bytes) (s : State) : Result :=
  initContext .simon 2#4 .cbc key iv ctr s

/-- `INIT.SIMON.K96B48.CFB` (R114). -/
def execInitSimonK96B48Cfb (key : Bytes) (iv ctr : Option Bytes) (s : State) : Result :=
  initContext .simon 2#4 .cfb key iv ctr s

/-- `INIT.SIMON.K96B48.OFB` (R114). -/
def execInitSimonK96B48Ofb (key : Bytes) (iv ctr : Option Bytes) (s : State) : Result :=
  initContext .simon 2#4 .ofb key iv ctr s

/-- `INIT.SIMON.K96B64.ECB` (R115). -/
def execInitSimonK96B64Ecb (key : Bytes) (iv ctr : Option Bytes) (s : State) : Result :=
  initContext .simon 3#4 .ecb key iv ctr s

/-- `INIT.SIMON.K96B64.CTR` (R115). -/
def execInitSimonK96B64Ctr (key : Bytes) (iv ctr : Option Bytes) (s : State) : Result :=
  initContext .simon 3#4 .ctr key iv ctr s

/-- `INIT.SIMON.K96B64.CBC` (R115). -/
def execInitSimonK96B64Cbc (key : Bytes) (iv ctr : Option Bytes) (s : State) : Result :=
  initContext .simon 3#4 .cbc key iv ctr s

/-- `INIT.SIMON.K96B64.CFB` (R115). -/
def execInitSimonK96B64Cfb (key : Bytes) (iv ctr : Option Bytes) (s : State) : Result :=
  initContext .simon 3#4 .cfb key iv ctr s

/-- `INIT.SIMON.K96B64.OFB` (R115). -/
def execInitSimonK96B64Ofb (key : Bytes) (iv ctr : Option Bytes) (s : State) : Result :=
  initContext .simon 3#4 .ofb key iv ctr s

/-- `INIT.SIMON.K128B64.ECB` (R116). -/
def execInitSimonK128B64Ecb (key : Bytes) (iv ctr : Option Bytes) (s : State) : Result :=
  initContext .simon 4#4 .ecb key iv ctr s

/-- `INIT.SIMON.K128B64.CTR` (R116). -/
def execInitSimonK128B64Ctr (key : Bytes) (iv ctr : Option Bytes) (s : State) : Result :=
  initContext .simon 4#4 .ctr key iv ctr s

/-- `INIT.SIMON.K128B64.CBC` (R116). -/
def execInitSimonK128B64Cbc (key : Bytes) (iv ctr : Option Bytes) (s : State) : Result :=
  initContext .simon 4#4 .cbc key iv ctr s

/-- `INIT.SIMON.K128B64.CFB` (R116). -/
def execInitSimonK128B64Cfb (key : Bytes) (iv ctr : Option Bytes) (s : State) : Result :=
  initContext .simon 4#4 .cfb key iv ctr s

/-- `INIT.SIMON.K128B64.OFB` (R116). -/
def execInitSimonK128B64Ofb (key : Bytes) (iv ctr : Option Bytes) (s : State) : Result :=
  initContext .simon 4#4 .ofb key iv ctr s

/-- `INIT.SIMON.K96B96.ECB` (R117). -/
def execInitSimonK96B96Ecb (key : Bytes) (iv ctr : Option Bytes) (s : State) : Result :=
  initContext .simon 5#4 .ecb key iv ctr s

/-- `INIT.SIMON.K96B96.CTR` (R117). -/
def execInitSimonK96B96Ctr (key : Bytes) (iv ctr : Option Bytes) (s : State) : Result :=
  initContext .simon 5#4 .ctr key iv ctr s

/-- `INIT.SIMON.K96B96.CBC` (R117). -/
def execInitSimonK96B96Cbc (key : Bytes) (iv ctr : Option Bytes) (s : State) : Result :=
  initContext .simon 5#4 .cbc key iv ctr s

/-- `INIT.SIMON.K96B96.CFB` (R117). -/
def execInitSimonK96B96Cfb (key : Bytes) (iv ctr : Option Bytes) (s : State) : Result :=
  initContext .simon 5#4 .cfb key iv ctr s

/-- `INIT.SIMON.K96B96.OFB` (R117). -/
def execInitSimonK96B96Ofb (key : Bytes) (iv ctr : Option Bytes) (s : State) : Result :=
  initContext .simon 5#4 .ofb key iv ctr s

/-- `INIT.SIMON.K144B96.ECB` (R118). -/
def execInitSimonK144B96Ecb (key : Bytes) (iv ctr : Option Bytes) (s : State) : Result :=
  initContext .simon 6#4 .ecb key iv ctr s

/-- `INIT.SIMON.K144B96.CTR` (R118). -/
def execInitSimonK144B96Ctr (key : Bytes) (iv ctr : Option Bytes) (s : State) : Result :=
  initContext .simon 6#4 .ctr key iv ctr s

/-- `INIT.SIMON.K144B96.CBC` (R118). -/
def execInitSimonK144B96Cbc (key : Bytes) (iv ctr : Option Bytes) (s : State) : Result :=
  initContext .simon 6#4 .cbc key iv ctr s

/-- `INIT.SIMON.K144B96.CFB` (R118). -/
def execInitSimonK144B96Cfb (key : Bytes) (iv ctr : Option Bytes) (s : State) : Result :=
  initContext .simon 6#4 .cfb key iv ctr s

/-- `INIT.SIMON.K144B96.OFB` (R118). -/
def execInitSimonK144B96Ofb (key : Bytes) (iv ctr : Option Bytes) (s : State) : Result :=
  initContext .simon 6#4 .ofb key iv ctr s

/-- `INIT.SIMON.K128B128.ECB` (R119). -/
def execInitSimonK128B128Ecb (key : Bytes) (iv ctr : Option Bytes) (s : State) : Result :=
  initContext .simon 7#4 .ecb key iv ctr s

/-- `INIT.SIMON.K128B128.CTR` (R119). -/
def execInitSimonK128B128Ctr (key : Bytes) (iv ctr : Option Bytes) (s : State) : Result :=
  initContext .simon 7#4 .ctr key iv ctr s

/-- `INIT.SIMON.K128B128.CBC` (R119). -/
def execInitSimonK128B128Cbc (key : Bytes) (iv ctr : Option Bytes) (s : State) : Result :=
  initContext .simon 7#4 .cbc key iv ctr s

/-- `INIT.SIMON.K128B128.CFB` (R119). -/
def execInitSimonK128B128Cfb (key : Bytes) (iv ctr : Option Bytes) (s : State) : Result :=
  initContext .simon 7#4 .cfb key iv ctr s

/-- `INIT.SIMON.K128B128.OFB` (R119). -/
def execInitSimonK128B128Ofb (key : Bytes) (iv ctr : Option Bytes) (s : State) : Result :=
  initContext .simon 7#4 .ofb key iv ctr s

/-- `INIT.SIMON.K192B128.ECB` (R120). -/
def execInitSimonK192B128Ecb (key : Bytes) (iv ctr : Option Bytes) (s : State) : Result :=
  initContext .simon 8#4 .ecb key iv ctr s

/-- `INIT.SIMON.K192B128.CTR` (R120). -/
def execInitSimonK192B128Ctr (key : Bytes) (iv ctr : Option Bytes) (s : State) : Result :=
  initContext .simon 8#4 .ctr key iv ctr s

/-- `INIT.SIMON.K192B128.CBC` (R120). -/
def execInitSimonK192B128Cbc (key : Bytes) (iv ctr : Option Bytes) (s : State) : Result :=
  initContext .simon 8#4 .cbc key iv ctr s

/-- `INIT.SIMON.K192B128.CFB` (R120). -/
def execInitSimonK192B128Cfb (key : Bytes) (iv ctr : Option Bytes) (s : State) : Result :=
  initContext .simon 8#4 .cfb key iv ctr s

/-- `INIT.SIMON.K192B128.OFB` (R120). -/
def execInitSimonK192B128Ofb (key : Bytes) (iv ctr : Option Bytes) (s : State) : Result :=
  initContext .simon 8#4 .ofb key iv ctr s

/-- `INIT.SIMON.K256B128.ECB` (R121). -/
def execInitSimonK256B128Ecb (key : Bytes) (iv ctr : Option Bytes) (s : State) : Result :=
  initContext .simon 9#4 .ecb key iv ctr s

/-- `INIT.SIMON.K256B128.CTR` (R121). -/
def execInitSimonK256B128Ctr (key : Bytes) (iv ctr : Option Bytes) (s : State) : Result :=
  initContext .simon 9#4 .ctr key iv ctr s

/-- `INIT.SIMON.K256B128.CBC` (R121). -/
def execInitSimonK256B128Cbc (key : Bytes) (iv ctr : Option Bytes) (s : State) : Result :=
  initContext .simon 9#4 .cbc key iv ctr s

/-- `INIT.SIMON.K256B128.CFB` (R121). -/
def execInitSimonK256B128Cfb (key : Bytes) (iv ctr : Option Bytes) (s : State) : Result :=
  initContext .simon 9#4 .cfb key iv ctr s

/-- `INIT.SIMON.K256B128.OFB` (R121). -/
def execInitSimonK256B128Ofb (key : Bytes) (iv ctr : Option Bytes) (s : State) : Result :=
  initContext .simon 9#4 .ofb key iv ctr s

end Sys2Proof.Machine
end

