-- ==== Sys2Proof/Machine/InitSpeck.lean ====
section
/-! DEFINITION. The fifty INIT commands of the Speck family: each is INIT (45_context_commands.md R220) with the family, the
(key, block) pair and the mode its row of spec/opcode_table.json names. -/

namespace Sys2Proof.Machine

/-- `INIT.SPECK.K64B32.ECB` (R122). -/
def execInitSpeckK64B32Ecb (key : Bytes) (iv ctr : Option Bytes) (s : State) : Result :=
  initContext .speck 0#4 .ecb key iv ctr s

/-- `INIT.SPECK.K64B32.CTR` (R122). -/
def execInitSpeckK64B32Ctr (key : Bytes) (iv ctr : Option Bytes) (s : State) : Result :=
  initContext .speck 0#4 .ctr key iv ctr s

/-- `INIT.SPECK.K64B32.CBC` (R122). -/
def execInitSpeckK64B32Cbc (key : Bytes) (iv ctr : Option Bytes) (s : State) : Result :=
  initContext .speck 0#4 .cbc key iv ctr s

/-- `INIT.SPECK.K64B32.CFB` (R122). -/
def execInitSpeckK64B32Cfb (key : Bytes) (iv ctr : Option Bytes) (s : State) : Result :=
  initContext .speck 0#4 .cfb key iv ctr s

/-- `INIT.SPECK.K64B32.OFB` (R122). -/
def execInitSpeckK64B32Ofb (key : Bytes) (iv ctr : Option Bytes) (s : State) : Result :=
  initContext .speck 0#4 .ofb key iv ctr s

/-- `INIT.SPECK.K72B48.ECB` (R123). -/
def execInitSpeckK72B48Ecb (key : Bytes) (iv ctr : Option Bytes) (s : State) : Result :=
  initContext .speck 1#4 .ecb key iv ctr s

/-- `INIT.SPECK.K72B48.CTR` (R123). -/
def execInitSpeckK72B48Ctr (key : Bytes) (iv ctr : Option Bytes) (s : State) : Result :=
  initContext .speck 1#4 .ctr key iv ctr s

/-- `INIT.SPECK.K72B48.CBC` (R123). -/
def execInitSpeckK72B48Cbc (key : Bytes) (iv ctr : Option Bytes) (s : State) : Result :=
  initContext .speck 1#4 .cbc key iv ctr s

/-- `INIT.SPECK.K72B48.CFB` (R123). -/
def execInitSpeckK72B48Cfb (key : Bytes) (iv ctr : Option Bytes) (s : State) : Result :=
  initContext .speck 1#4 .cfb key iv ctr s

/-- `INIT.SPECK.K72B48.OFB` (R123). -/
def execInitSpeckK72B48Ofb (key : Bytes) (iv ctr : Option Bytes) (s : State) : Result :=
  initContext .speck 1#4 .ofb key iv ctr s

/-- `INIT.SPECK.K96B48.ECB` (R124). -/
def execInitSpeckK96B48Ecb (key : Bytes) (iv ctr : Option Bytes) (s : State) : Result :=
  initContext .speck 2#4 .ecb key iv ctr s

/-- `INIT.SPECK.K96B48.CTR` (R124). -/
def execInitSpeckK96B48Ctr (key : Bytes) (iv ctr : Option Bytes) (s : State) : Result :=
  initContext .speck 2#4 .ctr key iv ctr s

/-- `INIT.SPECK.K96B48.CBC` (R124). -/
def execInitSpeckK96B48Cbc (key : Bytes) (iv ctr : Option Bytes) (s : State) : Result :=
  initContext .speck 2#4 .cbc key iv ctr s

/-- `INIT.SPECK.K96B48.CFB` (R124). -/
def execInitSpeckK96B48Cfb (key : Bytes) (iv ctr : Option Bytes) (s : State) : Result :=
  initContext .speck 2#4 .cfb key iv ctr s

/-- `INIT.SPECK.K96B48.OFB` (R124). -/
def execInitSpeckK96B48Ofb (key : Bytes) (iv ctr : Option Bytes) (s : State) : Result :=
  initContext .speck 2#4 .ofb key iv ctr s

/-- `INIT.SPECK.K96B64.ECB` (R125). -/
def execInitSpeckK96B64Ecb (key : Bytes) (iv ctr : Option Bytes) (s : State) : Result :=
  initContext .speck 3#4 .ecb key iv ctr s

/-- `INIT.SPECK.K96B64.CTR` (R125). -/
def execInitSpeckK96B64Ctr (key : Bytes) (iv ctr : Option Bytes) (s : State) : Result :=
  initContext .speck 3#4 .ctr key iv ctr s

/-- `INIT.SPECK.K96B64.CBC` (R125). -/
def execInitSpeckK96B64Cbc (key : Bytes) (iv ctr : Option Bytes) (s : State) : Result :=
  initContext .speck 3#4 .cbc key iv ctr s

/-- `INIT.SPECK.K96B64.CFB` (R125). -/
def execInitSpeckK96B64Cfb (key : Bytes) (iv ctr : Option Bytes) (s : State) : Result :=
  initContext .speck 3#4 .cfb key iv ctr s

/-- `INIT.SPECK.K96B64.OFB` (R125). -/
def execInitSpeckK96B64Ofb (key : Bytes) (iv ctr : Option Bytes) (s : State) : Result :=
  initContext .speck 3#4 .ofb key iv ctr s

/-- `INIT.SPECK.K128B64.ECB` (R126). -/
def execInitSpeckK128B64Ecb (key : Bytes) (iv ctr : Option Bytes) (s : State) : Result :=
  initContext .speck 4#4 .ecb key iv ctr s

/-- `INIT.SPECK.K128B64.CTR` (R126). -/
def execInitSpeckK128B64Ctr (key : Bytes) (iv ctr : Option Bytes) (s : State) : Result :=
  initContext .speck 4#4 .ctr key iv ctr s

/-- `INIT.SPECK.K128B64.CBC` (R126). -/
def execInitSpeckK128B64Cbc (key : Bytes) (iv ctr : Option Bytes) (s : State) : Result :=
  initContext .speck 4#4 .cbc key iv ctr s

/-- `INIT.SPECK.K128B64.CFB` (R126). -/
def execInitSpeckK128B64Cfb (key : Bytes) (iv ctr : Option Bytes) (s : State) : Result :=
  initContext .speck 4#4 .cfb key iv ctr s

/-- `INIT.SPECK.K128B64.OFB` (R126). -/
def execInitSpeckK128B64Ofb (key : Bytes) (iv ctr : Option Bytes) (s : State) : Result :=
  initContext .speck 4#4 .ofb key iv ctr s

/-- `INIT.SPECK.K96B96.ECB` (R127). -/
def execInitSpeckK96B96Ecb (key : Bytes) (iv ctr : Option Bytes) (s : State) : Result :=
  initContext .speck 5#4 .ecb key iv ctr s

/-- `INIT.SPECK.K96B96.CTR` (R127). -/
def execInitSpeckK96B96Ctr (key : Bytes) (iv ctr : Option Bytes) (s : State) : Result :=
  initContext .speck 5#4 .ctr key iv ctr s

/-- `INIT.SPECK.K96B96.CBC` (R127). -/
def execInitSpeckK96B96Cbc (key : Bytes) (iv ctr : Option Bytes) (s : State) : Result :=
  initContext .speck 5#4 .cbc key iv ctr s

/-- `INIT.SPECK.K96B96.CFB` (R127). -/
def execInitSpeckK96B96Cfb (key : Bytes) (iv ctr : Option Bytes) (s : State) : Result :=
  initContext .speck 5#4 .cfb key iv ctr s

/-- `INIT.SPECK.K96B96.OFB` (R127). -/
def execInitSpeckK96B96Ofb (key : Bytes) (iv ctr : Option Bytes) (s : State) : Result :=
  initContext .speck 5#4 .ofb key iv ctr s

/-- `INIT.SPECK.K144B96.ECB` (R128). -/
def execInitSpeckK144B96Ecb (key : Bytes) (iv ctr : Option Bytes) (s : State) : Result :=
  initContext .speck 6#4 .ecb key iv ctr s

/-- `INIT.SPECK.K144B96.CTR` (R128). -/
def execInitSpeckK144B96Ctr (key : Bytes) (iv ctr : Option Bytes) (s : State) : Result :=
  initContext .speck 6#4 .ctr key iv ctr s

/-- `INIT.SPECK.K144B96.CBC` (R128). -/
def execInitSpeckK144B96Cbc (key : Bytes) (iv ctr : Option Bytes) (s : State) : Result :=
  initContext .speck 6#4 .cbc key iv ctr s

/-- `INIT.SPECK.K144B96.CFB` (R128). -/
def execInitSpeckK144B96Cfb (key : Bytes) (iv ctr : Option Bytes) (s : State) : Result :=
  initContext .speck 6#4 .cfb key iv ctr s

/-- `INIT.SPECK.K144B96.OFB` (R128). -/
def execInitSpeckK144B96Ofb (key : Bytes) (iv ctr : Option Bytes) (s : State) : Result :=
  initContext .speck 6#4 .ofb key iv ctr s

/-- `INIT.SPECK.K128B128.ECB` (R129). -/
def execInitSpeckK128B128Ecb (key : Bytes) (iv ctr : Option Bytes) (s : State) : Result :=
  initContext .speck 7#4 .ecb key iv ctr s

/-- `INIT.SPECK.K128B128.CTR` (R129). -/
def execInitSpeckK128B128Ctr (key : Bytes) (iv ctr : Option Bytes) (s : State) : Result :=
  initContext .speck 7#4 .ctr key iv ctr s

/-- `INIT.SPECK.K128B128.CBC` (R129). -/
def execInitSpeckK128B128Cbc (key : Bytes) (iv ctr : Option Bytes) (s : State) : Result :=
  initContext .speck 7#4 .cbc key iv ctr s

/-- `INIT.SPECK.K128B128.CFB` (R129). -/
def execInitSpeckK128B128Cfb (key : Bytes) (iv ctr : Option Bytes) (s : State) : Result :=
  initContext .speck 7#4 .cfb key iv ctr s

/-- `INIT.SPECK.K128B128.OFB` (R129). -/
def execInitSpeckK128B128Ofb (key : Bytes) (iv ctr : Option Bytes) (s : State) : Result :=
  initContext .speck 7#4 .ofb key iv ctr s

/-- `INIT.SPECK.K192B128.ECB` (R130). -/
def execInitSpeckK192B128Ecb (key : Bytes) (iv ctr : Option Bytes) (s : State) : Result :=
  initContext .speck 8#4 .ecb key iv ctr s

/-- `INIT.SPECK.K192B128.CTR` (R130). -/
def execInitSpeckK192B128Ctr (key : Bytes) (iv ctr : Option Bytes) (s : State) : Result :=
  initContext .speck 8#4 .ctr key iv ctr s

/-- `INIT.SPECK.K192B128.CBC` (R130). -/
def execInitSpeckK192B128Cbc (key : Bytes) (iv ctr : Option Bytes) (s : State) : Result :=
  initContext .speck 8#4 .cbc key iv ctr s

/-- `INIT.SPECK.K192B128.CFB` (R130). -/
def execInitSpeckK192B128Cfb (key : Bytes) (iv ctr : Option Bytes) (s : State) : Result :=
  initContext .speck 8#4 .cfb key iv ctr s

/-- `INIT.SPECK.K192B128.OFB` (R130). -/
def execInitSpeckK192B128Ofb (key : Bytes) (iv ctr : Option Bytes) (s : State) : Result :=
  initContext .speck 8#4 .ofb key iv ctr s

/-- `INIT.SPECK.K256B128.ECB` (R131). -/
def execInitSpeckK256B128Ecb (key : Bytes) (iv ctr : Option Bytes) (s : State) : Result :=
  initContext .speck 9#4 .ecb key iv ctr s

/-- `INIT.SPECK.K256B128.CTR` (R131). -/
def execInitSpeckK256B128Ctr (key : Bytes) (iv ctr : Option Bytes) (s : State) : Result :=
  initContext .speck 9#4 .ctr key iv ctr s

/-- `INIT.SPECK.K256B128.CBC` (R131). -/
def execInitSpeckK256B128Cbc (key : Bytes) (iv ctr : Option Bytes) (s : State) : Result :=
  initContext .speck 9#4 .cbc key iv ctr s

/-- `INIT.SPECK.K256B128.CFB` (R131). -/
def execInitSpeckK256B128Cfb (key : Bytes) (iv ctr : Option Bytes) (s : State) : Result :=
  initContext .speck 9#4 .cfb key iv ctr s

/-- `INIT.SPECK.K256B128.OFB` (R131). -/
def execInitSpeckK256B128Ofb (key : Bytes) (iv ctr : Option Bytes) (s : State) : Result :=
  initContext .speck 9#4 .ofb key iv ctr s

end Sys2Proof.Machine
end

