-- ==== Sys2Proof/Machine/Dispatch.lean ====
section
/-! DEFINITION. exec: one arm per constructor of Instr. -/

namespace Sys2Proof.Machine

def exec (i : Instr) (s : State) : Host.Outcome State Fault Refusal :=
  match i with
  | .initSimonK64B32Ecb key iv ctr => Sys2Proof.Machine.execInitSimonK64B32Ecb key iv ctr s
  | .initSimonK64B32Ctr key iv ctr => Sys2Proof.Machine.execInitSimonK64B32Ctr key iv ctr s
  | .initSimonK64B32Cbc key iv ctr => Sys2Proof.Machine.execInitSimonK64B32Cbc key iv ctr s
  | .initSimonK64B32Cfb key iv ctr => Sys2Proof.Machine.execInitSimonK64B32Cfb key iv ctr s
  | .initSimonK64B32Ofb key iv ctr => Sys2Proof.Machine.execInitSimonK64B32Ofb key iv ctr s
  | .initSimonK72B48Ecb key iv ctr => Sys2Proof.Machine.execInitSimonK72B48Ecb key iv ctr s
  | .initSimonK72B48Ctr key iv ctr => Sys2Proof.Machine.execInitSimonK72B48Ctr key iv ctr s
  | .initSimonK72B48Cbc key iv ctr => Sys2Proof.Machine.execInitSimonK72B48Cbc key iv ctr s
  | .initSimonK72B48Cfb key iv ctr => Sys2Proof.Machine.execInitSimonK72B48Cfb key iv ctr s
  | .initSimonK72B48Ofb key iv ctr => Sys2Proof.Machine.execInitSimonK72B48Ofb key iv ctr s
  | .initSimonK96B48Ecb key iv ctr => Sys2Proof.Machine.execInitSimonK96B48Ecb key iv ctr s
  | .initSimonK96B48Ctr key iv ctr => Sys2Proof.Machine.execInitSimonK96B48Ctr key iv ctr s
  | .initSimonK96B48Cbc key iv ctr => Sys2Proof.Machine.execInitSimonK96B48Cbc key iv ctr s
  | .initSimonK96B48Cfb key iv ctr => Sys2Proof.Machine.execInitSimonK96B48Cfb key iv ctr s
  | .initSimonK96B48Ofb key iv ctr => Sys2Proof.Machine.execInitSimonK96B48Ofb key iv ctr s
  | .initSimonK96B64Ecb key iv ctr => Sys2Proof.Machine.execInitSimonK96B64Ecb key iv ctr s
  | .initSimonK96B64Ctr key iv ctr => Sys2Proof.Machine.execInitSimonK96B64Ctr key iv ctr s
  | .initSimonK96B64Cbc key iv ctr => Sys2Proof.Machine.execInitSimonK96B64Cbc key iv ctr s
  | .initSimonK96B64Cfb key iv ctr => Sys2Proof.Machine.execInitSimonK96B64Cfb key iv ctr s
  | .initSimonK96B64Ofb key iv ctr => Sys2Proof.Machine.execInitSimonK96B64Ofb key iv ctr s
  | .initSimonK128B64Ecb key iv ctr => Sys2Proof.Machine.execInitSimonK128B64Ecb key iv ctr s
  | .initSimonK128B64Ctr key iv ctr => Sys2Proof.Machine.execInitSimonK128B64Ctr key iv ctr s
  | .initSimonK128B64Cbc key iv ctr => Sys2Proof.Machine.execInitSimonK128B64Cbc key iv ctr s
  | .initSimonK128B64Cfb key iv ctr => Sys2Proof.Machine.execInitSimonK128B64Cfb key iv ctr s
  | .initSimonK128B64Ofb key iv ctr => Sys2Proof.Machine.execInitSimonK128B64Ofb key iv ctr s
  | .initSimonK96B96Ecb key iv ctr => Sys2Proof.Machine.execInitSimonK96B96Ecb key iv ctr s
  | .initSimonK96B96Ctr key iv ctr => Sys2Proof.Machine.execInitSimonK96B96Ctr key iv ctr s
  | .initSimonK96B96Cbc key iv ctr => Sys2Proof.Machine.execInitSimonK96B96Cbc key iv ctr s
  | .initSimonK96B96Cfb key iv ctr => Sys2Proof.Machine.execInitSimonK96B96Cfb key iv ctr s
  | .initSimonK96B96Ofb key iv ctr => Sys2Proof.Machine.execInitSimonK96B96Ofb key iv ctr s
  | .initSimonK144B96Ecb key iv ctr => Sys2Proof.Machine.execInitSimonK144B96Ecb key iv ctr s
  | .initSimonK144B96Ctr key iv ctr => Sys2Proof.Machine.execInitSimonK144B96Ctr key iv ctr s
  | .initSimonK144B96Cbc key iv ctr => Sys2Proof.Machine.execInitSimonK144B96Cbc key iv ctr s
  | .initSimonK144B96Cfb key iv ctr => Sys2Proof.Machine.execInitSimonK144B96Cfb key iv ctr s
  | .initSimonK144B96Ofb key iv ctr => Sys2Proof.Machine.execInitSimonK144B96Ofb key iv ctr s
  | .initSimonK128B128Ecb key iv ctr => Sys2Proof.Machine.execInitSimonK128B128Ecb key iv ctr s
  | .initSimonK128B128Ctr key iv ctr => Sys2Proof.Machine.execInitSimonK128B128Ctr key iv ctr s
  | .initSimonK128B128Cbc key iv ctr => Sys2Proof.Machine.execInitSimonK128B128Cbc key iv ctr s
  | .initSimonK128B128Cfb key iv ctr => Sys2Proof.Machine.execInitSimonK128B128Cfb key iv ctr s
  | .initSimonK128B128Ofb key iv ctr => Sys2Proof.Machine.execInitSimonK128B128Ofb key iv ctr s
  | .initSimonK192B128Ecb key iv ctr => Sys2Proof.Machine.execInitSimonK192B128Ecb key iv ctr s
  | .initSimonK192B128Ctr key iv ctr => Sys2Proof.Machine.execInitSimonK192B128Ctr key iv ctr s
  | .initSimonK192B128Cbc key iv ctr => Sys2Proof.Machine.execInitSimonK192B128Cbc key iv ctr s
  | .initSimonK192B128Cfb key iv ctr => Sys2Proof.Machine.execInitSimonK192B128Cfb key iv ctr s
  | .initSimonK192B128Ofb key iv ctr => Sys2Proof.Machine.execInitSimonK192B128Ofb key iv ctr s
  | .initSimonK256B128Ecb key iv ctr => Sys2Proof.Machine.execInitSimonK256B128Ecb key iv ctr s
  | .initSimonK256B128Ctr key iv ctr => Sys2Proof.Machine.execInitSimonK256B128Ctr key iv ctr s
  | .initSimonK256B128Cbc key iv ctr => Sys2Proof.Machine.execInitSimonK256B128Cbc key iv ctr s
  | .initSimonK256B128Cfb key iv ctr => Sys2Proof.Machine.execInitSimonK256B128Cfb key iv ctr s
  | .initSimonK256B128Ofb key iv ctr => Sys2Proof.Machine.execInitSimonK256B128Ofb key iv ctr s
  | .initSpeckK64B32Ecb key iv ctr => Sys2Proof.Machine.execInitSpeckK64B32Ecb key iv ctr s
  | .initSpeckK64B32Ctr key iv ctr => Sys2Proof.Machine.execInitSpeckK64B32Ctr key iv ctr s
  | .initSpeckK64B32Cbc key iv ctr => Sys2Proof.Machine.execInitSpeckK64B32Cbc key iv ctr s
  | .initSpeckK64B32Cfb key iv ctr => Sys2Proof.Machine.execInitSpeckK64B32Cfb key iv ctr s
  | .initSpeckK64B32Ofb key iv ctr => Sys2Proof.Machine.execInitSpeckK64B32Ofb key iv ctr s
  | .initSpeckK72B48Ecb key iv ctr => Sys2Proof.Machine.execInitSpeckK72B48Ecb key iv ctr s
  | .initSpeckK72B48Ctr key iv ctr => Sys2Proof.Machine.execInitSpeckK72B48Ctr key iv ctr s
  | .initSpeckK72B48Cbc key iv ctr => Sys2Proof.Machine.execInitSpeckK72B48Cbc key iv ctr s
  | .initSpeckK72B48Cfb key iv ctr => Sys2Proof.Machine.execInitSpeckK72B48Cfb key iv ctr s
  | .initSpeckK72B48Ofb key iv ctr => Sys2Proof.Machine.execInitSpeckK72B48Ofb key iv ctr s
  | .initSpeckK96B48Ecb key iv ctr => Sys2Proof.Machine.execInitSpeckK96B48Ecb key iv ctr s
  | .initSpeckK96B48Ctr key iv ctr => Sys2Proof.Machine.execInitSpeckK96B48Ctr key iv ctr s
  | .initSpeckK96B48Cbc key iv ctr => Sys2Proof.Machine.execInitSpeckK96B48Cbc key iv ctr s
  | .initSpeckK96B48Cfb key iv ctr => Sys2Proof.Machine.execInitSpeckK96B48Cfb key iv ctr s
  | .initSpeckK96B48Ofb key iv ctr => Sys2Proof.Machine.execInitSpeckK96B48Ofb key iv ctr s
  | .initSpeckK96B64Ecb key iv ctr => Sys2Proof.Machine.execInitSpeckK96B64Ecb key iv ctr s
  | .initSpeckK96B64Ctr key iv ctr => Sys2Proof.Machine.execInitSpeckK96B64Ctr key iv ctr s
  | .initSpeckK96B64Cbc key iv ctr => Sys2Proof.Machine.execInitSpeckK96B64Cbc key iv ctr s
  | .initSpeckK96B64Cfb key iv ctr => Sys2Proof.Machine.execInitSpeckK96B64Cfb key iv ctr s
  | .initSpeckK96B64Ofb key iv ctr => Sys2Proof.Machine.execInitSpeckK96B64Ofb key iv ctr s
  | .initSpeckK128B64Ecb key iv ctr => Sys2Proof.Machine.execInitSpeckK128B64Ecb key iv ctr s
  | .initSpeckK128B64Ctr key iv ctr => Sys2Proof.Machine.execInitSpeckK128B64Ctr key iv ctr s
  | .initSpeckK128B64Cbc key iv ctr => Sys2Proof.Machine.execInitSpeckK128B64Cbc key iv ctr s
  | .initSpeckK128B64Cfb key iv ctr => Sys2Proof.Machine.execInitSpeckK128B64Cfb key iv ctr s
  | .initSpeckK128B64Ofb key iv ctr => Sys2Proof.Machine.execInitSpeckK128B64Ofb key iv ctr s
  | .initSpeckK96B96Ecb key iv ctr => Sys2Proof.Machine.execInitSpeckK96B96Ecb key iv ctr s
  | .initSpeckK96B96Ctr key iv ctr => Sys2Proof.Machine.execInitSpeckK96B96Ctr key iv ctr s
  | .initSpeckK96B96Cbc key iv ctr => Sys2Proof.Machine.execInitSpeckK96B96Cbc key iv ctr s
  | .initSpeckK96B96Cfb key iv ctr => Sys2Proof.Machine.execInitSpeckK96B96Cfb key iv ctr s
  | .initSpeckK96B96Ofb key iv ctr => Sys2Proof.Machine.execInitSpeckK96B96Ofb key iv ctr s
  | .initSpeckK144B96Ecb key iv ctr => Sys2Proof.Machine.execInitSpeckK144B96Ecb key iv ctr s
  | .initSpeckK144B96Ctr key iv ctr => Sys2Proof.Machine.execInitSpeckK144B96Ctr key iv ctr s
  | .initSpeckK144B96Cbc key iv ctr => Sys2Proof.Machine.execInitSpeckK144B96Cbc key iv ctr s
  | .initSpeckK144B96Cfb key iv ctr => Sys2Proof.Machine.execInitSpeckK144B96Cfb key iv ctr s
  | .initSpeckK144B96Ofb key iv ctr => Sys2Proof.Machine.execInitSpeckK144B96Ofb key iv ctr s
  | .initSpeckK128B128Ecb key iv ctr => Sys2Proof.Machine.execInitSpeckK128B128Ecb key iv ctr s
  | .initSpeckK128B128Ctr key iv ctr => Sys2Proof.Machine.execInitSpeckK128B128Ctr key iv ctr s
  | .initSpeckK128B128Cbc key iv ctr => Sys2Proof.Machine.execInitSpeckK128B128Cbc key iv ctr s
  | .initSpeckK128B128Cfb key iv ctr => Sys2Proof.Machine.execInitSpeckK128B128Cfb key iv ctr s
  | .initSpeckK128B128Ofb key iv ctr => Sys2Proof.Machine.execInitSpeckK128B128Ofb key iv ctr s
  | .initSpeckK192B128Ecb key iv ctr => Sys2Proof.Machine.execInitSpeckK192B128Ecb key iv ctr s
  | .initSpeckK192B128Ctr key iv ctr => Sys2Proof.Machine.execInitSpeckK192B128Ctr key iv ctr s
  | .initSpeckK192B128Cbc key iv ctr => Sys2Proof.Machine.execInitSpeckK192B128Cbc key iv ctr s
  | .initSpeckK192B128Cfb key iv ctr => Sys2Proof.Machine.execInitSpeckK192B128Cfb key iv ctr s
  | .initSpeckK192B128Ofb key iv ctr => Sys2Proof.Machine.execInitSpeckK192B128Ofb key iv ctr s
  | .initSpeckK256B128Ecb key iv ctr => Sys2Proof.Machine.execInitSpeckK256B128Ecb key iv ctr s
  | .initSpeckK256B128Ctr key iv ctr => Sys2Proof.Machine.execInitSpeckK256B128Ctr key iv ctr s
  | .initSpeckK256B128Cbc key iv ctr => Sys2Proof.Machine.execInitSpeckK256B128Cbc key iv ctr s
  | .initSpeckK256B128Cfb key iv ctr => Sys2Proof.Machine.execInitSpeckK256B128Cfb key iv ctr s
  | .initSpeckK256B128Ofb key iv ctr => Sys2Proof.Machine.execInitSpeckK256B128Ofb key iv ctr s
  | .encrypt din => Sys2Proof.Machine.execEncrypt din s
  | .decrypt din => Sys2Proof.Machine.execDecrypt din s

end Sys2Proof.Machine
end

