-- ==== Sys2Proof/Machine/Issue.lean ====
section
/-! DEFINITION. How a command reaches its meaning: the next transaction the host issues is decoded and run, or answered with
the status of its rejection (30_encoding.md R70, R78). -/

namespace Sys2Proof.Machine

/-- One transaction, taken off the host's list already (R226: one atomic step). -/
def runTransaction (t : Transaction) (s : State) : Result :=
  match decode t with
  | .instr i => exec i s
  | .rejected r => .next (s.raise (rejectStatus r))

/-- The engine's step: idle with nothing issued (R224; log 10); otherwise the next command, run to
completion. -/
def issueNext (s : State) : Result :=
  match s.pending with
  | [] => .next s
  | t :: rest => runTransaction t { s with pending := rest }

/-- The state in which the host's next command is the bare command word `w`, with the operand buffers of
`tableTransaction` (log 9, 12). -/
def issueWord (s : State) (nbits w : Nat) : State :=
  { s with pending := tableTransaction (BitVec.ofNat 16 (w % 2 ^ nbits)) :: s.pending }

end Sys2Proof.Machine
end

