-- ==== Sys2Proof/Machine/Step.lean ====
section
/-! DEFINITION. The step: the engine runs the next command the host issues, or is idle. -/

namespace Sys2Proof.Machine

/-- One step of the engine (45_context_commands.md R224, R228). -/
def step (s : State) : Host.Outcome State Fault Refusal := issueNext s

/-- `s` with the command word `w` issued next: the very next step runs it (log 9, 12). -/
def State.withFetchWord (s : State) (nbits w : Nat) : State := issueWord s nbits w

end Sys2Proof.Machine
end

