-- ==== Sys2Proof/Safety.lean ====
section
/-! DEFINITION. What counts as a legal state and a safe run of the engine. -/

namespace Sys2Proof

open Sys2Proof.Machine

/-- A context that exists is legal: its selectors stand for one of the twenty configurations and one of the
five modes (10_state.md R23, R24), and each of its `T` subkeys is an n-bit word in its 64-bit entry
(R25, R32). -/
def contextLegal (s : State) : Prop :=
  s.valid = 1#1 → ∃ c md, resolve (familyOf s.family) s.cfg = some c ∧ modeOf s.mode = some md ∧
    ∀ i (h : i < 72), i < c.T → s.rk[i].toNat < 2 ^ c.n

/-- A response is legal: a code from 0 to 6, and output only with code 0 (30_encoding.md R79). -/
def responseLegal (r : Response) : Prop := r.status.toNat < 7 ∧ (r.status ≠ 0#3 → r.dout = none)

/-- The platform's bound, where set, is a positive number (00_scope.md R5). -/
def boundLegal (s : State) : Prop := ∀ most, s.maxBlocks = some most → 0 < most

/-- A legal state: what every step keeps. -/
def legal (s : State) : Prop :=
  contextLegal s ∧ (∀ r ∈ s.responses, responseLegal r) ∧ boundLegal s

/-- The state of a run's start: reset, then these commands to be issued, on a platform with this bound
(45_context_commands.md R228). -/
def runStart (commands : List Transaction) (maxBlocks : Option Nat) : State :=
  { State.reset with pending := commands, maxBlocks := maxBlocks }

/-- A step did not stop the machine. -/
def goesOn (o : Result) : Prop := ∃ t, o = .next t

/-- The context fields, which the host can neither read nor write (10_state.md R20, R37), are the same in
two states. -/
def sameContext (s t : State) : Prop :=
  t.valid = s.valid ∧ t.family = s.family ∧ t.cfg = s.cfg ∧ t.mode = s.mode ∧ t.rk = s.rk ∧ t.chain = s.chain

/-- The block `j` of a buffer, `buf[j*Bb .. (j+1)*Bb)` (20_memory.md R57). -/
def blockAt (buf : Bytes) (Bb j : Nat) : Bytes := (buf.drop (j * Bb)).take Bb

/-- A message of a positive whole number of blocks, within the platform's bound: the length condition of
ENCRYPT and DECRYPT (45_context_commands.md R221, 60_exceptions.md R244). -/
def messageFits (s : State) (Bb len : Nat) : Prop :=
  0 < len ∧ len % Bb = 0 ∧ ∀ most, s.maxBlocks = some most → len / Bb ≤ most

/-- The key words of a master key: `KW[j]` is the word at byte offset `j*n/8`, for `0 <= j < m` (20_memory.md
R54). -/
def keyWordsOf (c : Configuration) (key : Bytes) : List (Word c.n) :=
  (List.range c.m).map (fun j => bytesToWord c.n (blockAt key (c.n / 8) j))

/-- The state `s` with one more response, an error status and no data: all that a failing command does
(60_exceptions.md R248). -/
def answered (s : State) (code : BitVec 3) : State :=
  { s with responses := s.responses ++ [{ status := code, dout := none }] }

/-- A command has responded with this code and output, and touched nothing else on the host's side. -/
def respondedWith (s t : State) (code : BitVec 3) (dout : Option Bytes) : Prop :=
  t.responses = s.responses ++ [{ status := code, dout := dout }] ∧ t.pending = s.pending ∧
    t.maxBlocks = s.maxBlocks

/-- From `s` to `t` no field of the context has changed but perhaps `CHAIN` (10_state.md R36). -/
def sameKeys (s t : State) : Prop :=
  t.valid = s.valid ∧ t.family = s.family ∧ t.cfg = s.cfg ∧ t.mode = s.mode ∧ t.rk = s.rk

/-- An ENCRYPT or DECRYPT of `din` has responded OK with `dout`, of the same length, and its frame: all but
`CHAIN`, the response and the working registers, which are residues (10_state.md R28 to R30, R36). -/
def cryptOk (s t : State) (din dout : Bytes) : Prop :=
  respondedWith s t 0#3 (some dout) ∧ dout.length = din.length ∧ sameKeys s t

/-- The `Bb` bytes `CHAIN` holds (10_state.md R26). -/
def chainValue (s : State) (Bb : Nat) : Bytes := s.chain.toList.take Bb

/-- What a successful INIT has installed, apart from the chain, and its frame on the host's side: the
selectors, and in `RK[0 .. T-1]` the schedule of the key, each subkey zero-extended
(45_context_commands.md R220, 42_key_schedule.md R150). -/
def initOkWith (s t : State) (f : Family) (cfg : BitVec 4) (md : Mode) (c : Configuration) (key : Bytes) : Prop :=
  respondedWith s t 0#3 none ∧ t.valid = 1#1 ∧ t.family = familyCode f ∧ t.cfg = cfg ∧ t.mode = modeCode md ∧
    (keySchedule c (keyWordsOf c key)).length = c.T ∧
    ∀ i (h : i < 72), i < c.T → t.rk[i] = ((keySchedule c (keyWordsOf c key)).getD i 0#c.n).setWidth 64

/-- The ten published (key_size_bits, block_size_bits) pairs, in the order of `CFG` (30_encoding.md R74). -/
def publishedPairs : List (Nat × Nat) :=
  [(64, 32), (72, 48), (96, 48), (96, 64), (128, 64), (96, 96), (144, 96), (128, 128), (192, 128), (256, 128)]

/-- The number of a family, written out from the rule for the statements; the decoder, the encoder and the state
do not use it: 0 = Simon, 1 = Speck (30_encoding.md R73, 10_state.md R22). -/
def familyNumber : Family → Nat
  | .simon => 0
  | .speck => 1

/-- The number of a mode, written out from the rule for the statements; the decoder, the encoder and the state do
not use it: 0 ECB, 1 CTR, 2 CBC, 3 CFB, 4 OFB (30_encoding.md R75, 10_state.md R24). -/
def modeNumber : Mode → Nat
  | .ecb => 0
  | .ctr => 1
  | .cbc => 2
  | .cfb => 3
  | .ofb => 4

/-- The status code a command must be answered with, read from the numbers of its word, the lengths of its
operands and the context, by the order of checks of 60_exceptions.md R247. (7 stands for a context
that no run reaches.) -/
def expectedStatus (s : State) (t : Transaction) : Nat :=
  let w := t.cmd.toNat
  if w % 4 = 3 then 6
  else if w % 4 = 0 then
    if w / 4096 ≠ 0 ∨ 5 ≤ w / 128 % 8 then 6
    else
      match publishedPairs[w / 8 % 16]? with
      | none => 1
      | some (K, B) =>
        if t.key.length ≠ K / 8 then 2
        else if w / 128 % 8 = 1 ∧ (w / 2048 % 2 = 0 ∨ t.ctr.length ≠ B / 8) then 3
        else if 2 ≤ w / 128 % 8 ∧ (w / 1024 % 2 = 0 ∨ t.iv.length ≠ B / 8) then 3
        else 0
  else if w / 4 ≠ 0 then 6
  else if s.valid = 0#1 then 5
  else
    match publishedPairs[s.cfg.toNat]? with
    | none => 7
    | some (_, B) =>
      if t.din.length = 0 ∨ t.din.length % (B / 8) ≠ 0 ∨ (∃ most ∈ s.maxBlocks, most < t.din.length / (B / 8)) then 4
      else 0

end Sys2Proof
end

