-- ==== Sys2Proof/WellFormed.lean ====
section
/-! DEFINITION. Well-formed commands: those whose operands have the lengths the command's own fields ask for
(30_encoding.md R74 to R76; 45_context_commands.md R220 to R222). An ill-formed command is not
refused by the engine but answered with an error status; these checks say which commands cannot fail
on account of their own operands. -/

namespace Sys2Proof

open Sys2Proof.Machine

/-- A chain operand that is present and one block long (60_exceptions.md R243). -/
def blockOperand (Bb : Nat) (b : Option Bytes) : Bool :=
  match b with
  | some v => v.length == Bb
  | none => false

/-- The chain operand the mode requires is supplied (30_encoding.md R75): the counter in CTR, the IV in
CBC, CFB and OFB, none in ECB. -/
def chainOperandOk (md : Mode) (Bb : Nat) (iv ctr : Option Bytes) : Bool :=
  match md with
  | .ecb => true
  | .ctr => blockOperand Bb ctr
  | .cbc | .cfb | .ofb => blockOperand Bb iv

/-- A message that is a positive whole number of blocks of at least one of the block sizes 4, 6, 8, 12, 16
bytes (20_memory.md R56): a multiple of 4 or of 6. -/
def messageOk (din : Bytes) : Bool :=
  decide (0 < din.length) && (din.length % 4 == 0 || din.length % 6 == 0)

/-- The operands of an INIT agree with its fields. -/
def initOk (f : Family) (cfg : BitVec 4) (md : Mode) (key : Bytes) (iv ctr : Option Bytes) : Bool :=
  match resolve f cfg with
  | none => false
  | some c => key.length == c.Kb && chainOperandOk md c.Bb iv ctr

/-- The command is well formed. -/
def wellFormed (i : Instr) : Bool :=
  match commandFields i with
  | .init f cfg md key iv ctr => initOk f cfg md key iv ctr
  | .encrypt din => messageOk din
  | .decrypt din => messageOk din

end Sys2Proof
end

