-- ==== Sys2Proof/Certificates/Slice0/Obligations.lean ====
section
/-! DEFINITION. The statements for the provers, from the numbered rules of spec/. -/

open Sys2Proof Sys2Proof.Machine

/-! ### Reset, legal states and runs -/

/-- After reset no context exists, no command is in progress and none has responded (R35, R270); MAX_BLOCKS
is unset, its default (R5). -/
def Obligations.ResetHoldsNoContext : Prop :=
  State.reset.valid = 0#1 ∧ State.reset.context? = none ∧ State.reset.pending = [] ∧
    State.reset.responses = [] ∧ State.reset.maxBlocks = none

/-- The start of every run is a legal state: reset, with any commands to come and any positive bound (R228,
R35). -/
def Obligations.RunStartIsLegal : Prop :=
  ∀ (commands : List Transaction) (maxBlocks : Option Nat), (∀ most, maxBlocks = some most → 0 < most) →
    legal (runStart commands maxBlocks)

/-- Every step from a legal state leaves a legal state: the stored selectors stay legal (R23, R24), each
subkey stays an n-bit word in its 64-bit entry (R25, R32), and every response is legal (R79). -/
def Obligations.EveryStepKeepsLegal : Prop :=
  ∀ s t : State, legal s → step s = .next t → legal t

/-- From a legal state no step stops the machine: no fault and no refusal (R251). -/
def Obligations.LegalStateStepsOn : Prop :=
  ∀ s : State, legal s → goesOn (step s)

/-- From a legal state all the commands to be issued complete, one step each, each with exactly one response,
and the state at the end is legal (R228, R277). -/
def Obligations.IssuedCommandsAllComplete : Prop :=
  ∀ s : State, legal s → ∃ t : State, Host.Core.run Sys2Proof.core s.pending.length s = .next t ∧
    t.pending = [] ∧ t.responses.length = s.responses.length + s.pending.length ∧ legal t

/-! ### The step and the command words -/

/-- The next command issued runs as the meaning of the instruction it decodes to, taken off the list (R70,
R224). -/
def Obligations.StepRunsDecodedCommand : Prop :=
  ∀ (s : State) (t : Transaction) (rest : List Transaction) (i : Instr), s.pending = t :: rest →
    decode t = .instr i → step s = exec i { s with pending := rest }

/-- With no command issued the engine is idle: a step changes nothing. The model's choice of a step for an
idle engine (log 10). -/
def Obligations.IdleStepChangesNothing : Prop :=
  ∀ s : State, s.pending = [] → step s = .next s

/-- A few command words decode to the commands they stand for, whatever operand buffers come with them (R71
to R76). -/
def Obligations.SampleWordsDecode : Prop :=
  ∀ key iv ctr din : Bytes,
    decode ⟨0x0000#16, key, iv, ctr, din⟩ = .instr (.initSimonK64B32Ecb key none none) ∧
    decode ⟨0x0504#16, key, iv, ctr, din⟩ = .instr (.initSpeckK64B32Cbc key (some iv) none) ∧
    decode ⟨0x08c8#16, key, iv, ctr, din⟩ = .instr (.initSimonK256B128Ctr key none (some ctr)) ∧
    decode ⟨0x0c84#16, key, iv, ctr, din⟩ = .instr (.initSpeckK64B32Ctr key (some iv) (some ctr)) ∧
    decode ⟨0x0580#16, key, iv, ctr, din⟩ = .instr (.initSimonK64B32Cfb key (some iv) none) ∧
    decode ⟨0x063c#16, key, iv, ctr, din⟩ = .instr (.initSpeckK128B128Ofb key (some iv) none) ∧
    decode ⟨0x0001#16, key, iv, ctr, din⟩ = .instr (.encrypt din) ∧
    decode ⟨0x0002#16, key, iv, ctr, din⟩ = .instr (.decrypt din)

/-- Decoding the transaction of any command gives that command back, with every operand (R71 to R77, R82). -/
def Obligations.DecodeOfEncodeGivesCommand : Prop :=
  ∀ i : Instr, decode (encode i) = .instr i

/-- Encoding a decoded transaction gives its command word back: each command word has one meaning, and none
of its sixteen bits is dropped (R71, R78). -/
def Obligations.EncodeOfDecodeGivesWord : Prop :=
  ∀ (t : Transaction) (i : Instr), decode t = .instr i → (encode i).cmd = t.cmd

/-- The decoder's result for every command word, in terms of the word's number: IllegalCommand for OP = 3, for
a format I word with a reserved bit or MODE 5 to 7, and for a format X word with a reserved bit;
UnsupportedConfiguration for an otherwise legal INIT with CFG 10 to 15; a command for every other word
(R78). -/
def Obligations.DecoderRejectsExactlyReservedWords : Prop :=
  ∀ t : Transaction,
    (decode t = .rejected .illegalCommand ↔ t.cmd.toNat % 4 = 3 ∨
      (t.cmd.toNat % 4 = 0 ∧ (t.cmd.toNat / 4096 ≠ 0 ∨ 5 ≤ t.cmd.toNat / 128 % 8)) ∨
      ((t.cmd.toNat % 4 = 1 ∨ t.cmd.toNat % 4 = 2) ∧ t.cmd.toNat / 4 ≠ 0)) ∧
    (decode t = .rejected .unsupportedConfiguration ↔ t.cmd.toNat % 4 = 0 ∧ t.cmd.toNat / 4096 = 0 ∧
      t.cmd.toNat / 128 % 8 < 5 ∧ 10 ≤ t.cmd.toNat / 8 % 16) ∧
    ((∃ i, decode t = .instr i) ↔ (t.cmd.toNat % 4 = 0 ∧ t.cmd.toNat / 4096 = 0 ∧ t.cmd.toNat / 128 % 8 < 5 ∧
      t.cmd.toNat / 8 % 16 < 10) ∨ t.cmd.toNat = 1 ∨ t.cmd.toNat = 2)

/-! ### Errors -/

/-- A command word that encodes no command is answered IllegalCommand, and nothing else changes (R246,
R248). -/
def Obligations.ReservedWordRespondsIllegalCommand : Prop :=
  ∀ (s : State) (t : Transaction) (rest : List Transaction), s.pending = t :: rest →
    (t.cmd.toNat % 4 = 3 ∨ (t.cmd.toNat % 4 = 0 ∧ (t.cmd.toNat / 4096 ≠ 0 ∨ 5 ≤ t.cmd.toNat / 128 % 8)) ∨
      ((t.cmd.toNat % 4 = 1 ∨ t.cmd.toNat % 4 = 2) ∧ t.cmd.toNat / 4 ≠ 0)) →
    step s = .next (answered { s with pending := rest } 6#3)

/-- An INIT word, legal but for CFG 10 to 15, is answered UnsupportedConfiguration for either family and
whatever its operands, and nothing else changes; no command that decodes ever gives that status (R241). -/
def Obligations.UnpublishedPairRespondsUnsupported : Prop :=
  (∀ (s : State) (t : Transaction) (rest : List Transaction), s.pending = t :: rest →
    t.cmd.toNat % 4 = 0 → t.cmd.toNat / 4096 = 0 → t.cmd.toNat / 128 % 8 < 5 → 10 ≤ t.cmd.toNat / 8 % 16 →
    step s = .next (answered { s with pending := rest } 1#3)) ∧
  ∀ (i : Instr) (s t : State) (d : Option Bytes), exec i s = .next t →
    t.responses ≠ s.responses ++ [{ status := 1#3, dout := d }]

/-- Every INIT command whose key is longer or shorter than the configuration's key size is answered
InvalidKeyLength, whatever the chain operands, and nothing else changes (R242). -/
def Obligations.WrongKeyLengthRespondsInvalidKeyLength : Prop :=
  ∀ (i : Instr) (f : Family) (cfg : BitVec 4) (md : Mode) (key : Bytes) (iv ctr : Option Bytes) (c : Configuration)
    (s : State), commandFields i = .init f cfg md key iv ctr → resolve f cfg = some c → key.length ≠ c.Kb →
    exec i s = .next (answered s 2#3)

/-- Every INIT command in CTR whose counter, or in CBC, CFB or OFB whose IV, is absent or not one block long
is answered MissingChainValue, whatever the other operand, and nothing else changes; an ECB INIT never
gives that status (R243). -/
def Obligations.MissingChainOperandRespondsMissingChainValue : Prop :=
  ∀ (i : Instr) (f : Family) (cfg : BitVec 4) (md : Mode) (key : Bytes) (iv ctr : Option Bytes) (c : Configuration)
    (s : State), commandFields i = .init f cfg md key iv ctr → resolve f cfg = some c →
    ((key.length = c.Kb → md = .ctr → (∀ v, ctr = some v → v.length ≠ c.Bb) →
      exec i s = .next (answered s 3#3)) ∧
    (key.length = c.Kb → (md = .cbc ∨ md = .cfb ∨ md = .ofb) → (∀ v, iv = some v → v.length ≠ c.Bb) →
      exec i s = .next (answered s 3#3)) ∧
    (md = .ecb → ∀ (t : State) (d : Option Bytes), exec i s = .next t →
      t.responses ≠ s.responses ++ [{ status := 3#3, dout := d }]))

/-- ENCRYPT and DECRYPT with no context are answered NotInitialized, whatever the message and its length, and
nothing else changes (R245). -/
def Obligations.CryptWithoutContextRespondsNotInitialized : Prop :=
  ∀ (s : State) (din : Bytes), s.valid = 0#1 →
    exec (.encrypt din) s = .next (answered s 5#3) ∧ exec (.decrypt din) s = .next (answered s 5#3)

/-- ENCRYPT and DECRYPT of a message that is empty, not a whole number of blocks, or longer than MAX_BLOCKS
where it is set, are answered InvalidLength in every mode, and nothing else changes (R244). -/
def Obligations.BadLengthRespondsInvalidLength : Prop :=
  ∀ (s : State) (x : Context) (din : Bytes), s.context? = some x →
    (din.length = 0 ∨ din.length % x.conf.Bb ≠ 0 ∨
      ∃ most, s.maxBlocks = some most ∧ most < din.length / x.conf.Bb) →
    exec (.encrypt din) s = .next (answered s 4#3) ∧ exec (.decrypt din) s = .next (answered s 4#3)

/-- A step that runs a command gives one response; where that is an error, the step has changed nothing but
taking the command off the list and adding a response without data (R248). -/
def Obligations.ErrorChangesNothingElse : Prop :=
  ∀ (s s' : State) (t : Transaction) (rest : List Transaction), s.pending = t :: rest → step s = .next s' →
    ∃ r : Response, s'.responses = s.responses ++ [r] ∧ s'.pending = rest ∧
      (r.status ≠ 0#3 → s' = answered { s with pending := rest } r.status)

/-- The response of every command: the status that the order of checks gives (R247), and DOUT exactly for an
ENCRYPT or DECRYPT that responded OK (R79). -/
def Obligations.EveryCommandRespondsExpectedStatus : Prop :=
  ∀ (s s' : State) (t : Transaction) (rest : List Transaction), legal s → s.pending = t :: rest →
    step s = .next s' →
    ∃ d : Option Bytes,
      s'.responses = s.responses ++ [{ status := BitVec.ofNat 3 (expectedStatus s t), dout := d }] ∧
      expectedStatus s t < 7 ∧ (d.isSome ↔ expectedStatus s t = 0 ∧ t.cmd.toNat % 4 ≠ 0)

/-! ### INIT -/

/-- Every ECB INIT (the 20 constructors `init<family>K<key>B<block>Ecb`, both families) with a key of the configuration's size completes: it responds
OK and installs the selectors and the key schedule, from any state and whatever IV or counter comes with
it (R220, R150, R36). `CHAIN` then holds no value, and the working registers are residues. -/
def Obligations.EcbInitCompletes : Prop :=
  ∀ (i : Instr) (f : Family) (cfg : BitVec 4) (key : Bytes) (iv ctr : Option Bytes) (c : Configuration) (s : State),
    commandFields i = .init f cfg .ecb key iv ctr → resolve f cfg = some c → key.length = c.Kb →
    ∃ t, exec i s = .next t ∧ initOkWith s t f cfg .ecb c key

/-- Every CTR INIT (the 20 constructors `init<family>K<key>B<block>Ctr`, both families) with a key of the configuration's size and a counter of one
block completes: it responds OK, installs the selectors and the key schedule, and `CHAIN` is the counter,
from any state and whatever IV comes with it (R220, R150, R36, R26). -/
def Obligations.CtrInitCompletes : Prop :=
  ∀ (i : Instr) (f : Family) (cfg : BitVec 4) (key counter : Bytes) (iv : Option Bytes) (c : Configuration)
    (s : State), commandFields i = .init f cfg .ctr key iv (some counter) → resolve f cfg = some c →
    key.length = c.Kb → counter.length = c.Bb →
    ∃ t, exec i s = .next t ∧ initOkWith s t f cfg .ctr c key ∧ chainValue t c.Bb = counter

/-- Every CBC, CFB and OFB INIT (the 60 constructors `init<family>K<key>B<block>` ending in `Cbc`, `Cfb` or `Ofb`) with a key of the configuration's size and an IV
of one block completes: it responds OK, installs the selectors and the key schedule, and `CHAIN` is the
IV, from any state and whatever counter comes with it (R220, R150, R36, R26). -/
def Obligations.IvModeInitCompletes : Prop :=
  ∀ (i : Instr) (f : Family) (cfg : BitVec 4) (md : Mode) (key iv : Bytes) (ctr : Option Bytes) (c : Configuration)
    (s : State), commandFields i = .init f cfg md key (some iv) ctr → (md = .cbc ∨ md = .cfb ∨ md = .ofb) →
    resolve f cfg = some c → key.length = c.Kb → iv.length = c.Bb →
    ∃ t, exec i s = .next t ∧ initOkWith s t f cfg md c key ∧ chainValue t c.Bb = iv

/-- An INIT always completes, and it responds OK exactly when its operands agree with its fields: the key has
the configuration's size and the chain operand the mode requires is there and one block long (R220, R242,
R243). -/
def Obligations.InitSucceedsExactlyWhenWellFormed : Prop :=
  ∀ (i : Instr) (f : Family) (cfg : BitVec 4) (md : Mode) (key : Bytes) (iv ctr : Option Bytes) (s : State),
    commandFields i = .init f cfg md key iv ctr →
    ∃ t, exec i s = .next t ∧
      (wellFormed i = true ↔ t.responses = s.responses ++ [{ status := 0#3, dout := none }])

/-- What a successful INIT has installed is what the commands after it read: a context with its selectors, the
configuration they resolve to, the subkeys of its key schedule and the chain it left (R21 to R26). -/
def Obligations.InstalledContextIsReadBack : Prop :=
  ∀ (s t : State) (f : Family) (cfg : BitVec 4) (md : Mode) (c : Configuration) (key : Bytes),
    resolve f cfg = some c → initOkWith s t f cfg md c key →
    t.context? = some { family := f, cfg := cfg, mode := md, conf := c,
                        subkeys := keySchedule c (keyWordsOf c key), chain := chainValue t c.Bb }

/-- A chain operand the mode does not require is ignored: any two INIT commands of one configuration, mode and
key that agree on the operand the mode requires do the same (R76). -/
def Obligations.SurplusChainOperandIgnored : Prop :=
  ∀ (i j : Instr) (f : Family) (cfg : BitVec 4) (md : Mode) (key : Bytes) (iv ctr iv' ctr' : Option Bytes) (s : State),
    commandFields i = .init f cfg md key iv ctr → commandFields j = .init f cfg md key iv' ctr' →
    (md = .ctr → ctr = ctr') → (md = .cbc ∨ md = .cfb ∨ md = .ofb → iv = iv') → exec i s = exec j s

/-- A successful INIT replaces the whole context: what it leaves in every context field does not depend on
what the fields held before (R36). The states agree on the model's own counter, so that the free values
are the same. -/
def Obligations.InitReplacesWholeContext : Prop :=
  ∀ (i : Instr) (s u t t' : State), s.fresh = u.fresh → exec i s = .next t → exec i u = .next t' →
    t.responses = s.responses ++ [{ status := 0#3, dout := none }] →
    sameContext t t' ∧ t'.responses = u.responses ++ [{ status := 0#3, dout := none }]

/-- Only a successful INIT changes `CTX.VALID`, `CTX.FAMILY`, `CTX.CFG`, `CTX.MODE` or `RK`, and it leaves
VALID 1 (R21, R36). -/
def Obligations.OnlyInitWritesKeysAndSelectors : Prop :=
  ∀ s t : State, step s = .next t → ¬ sameKeys s t →
    ∃ tr rest i f cfg md key iv ctr, s.pending = tr :: rest ∧ decode tr = .instr i ∧
      commandFields i = .init f cfg md key iv ctr ∧ t.valid = 1#1 ∧
      t.responses = s.responses ++ [{ status := 0#3, dout := none }]

/-- Before the first successful INIT no command reads the context: two states without a context that agree on
the host's side and the model's own counter give the same response, and where one step creates a context
so does the other, the same one (R35, R271). -/
def Obligations.NoContextFieldReadBeforeInit : Prop :=
  ∀ s u t : State, s.valid = 0#1 → u.valid = 0#1 → s.pending = u.pending → s.responses = u.responses →
    s.maxBlocks = u.maxBlocks → s.fresh = u.fresh → step s = .next t →
    ∃ t', step u = .next t' ∧ t'.responses = t.responses ∧ t'.pending = t.pending ∧ t'.valid = t.valid ∧
      (t.valid = 1#1 → sameContext t t')

/-! ### ENCRYPT and DECRYPT, mode by mode -/

/-- ECB (R192, R193): each output block is `E` (`D`) of the input block at its place, and `CHAIN` is not
written. -/
def Obligations.EcbRunsEachBlockAlone : Prop :=
  ∀ (s : State) (x : Context) (din : Bytes), s.context? = some x → x.mode = .ecb →
    messageFits s x.conf.Bb din.length →
    (∃ t dout, exec (.encrypt din) s = .next t ∧ cryptOk s t din dout ∧ t.chain = s.chain ∧
      ∀ j < din.length / x.conf.Bb,
        blockAt dout x.conf.Bb j = blockE x.conf x.subkeys (blockAt din x.conf.Bb j)) ∧
    (∃ t dout, exec (.decrypt din) s = .next t ∧ cryptOk s t din dout ∧ t.chain = s.chain ∧
      ∀ j < din.length / x.conf.Bb,
        blockAt dout x.conf.Bb j = blockD x.conf x.subkeys (blockAt din x.conf.Bb j))

/-- CBC (R194, R195): `C_i = E(P_i XOR C_{i-1})`, `P_i = D(C_i) XOR C_{i-1}`, `C_{-1}` the chain the command
finds, and `CHAIN` left at the last ciphertext block. -/
def Obligations.CbcChainsCiphertext : Prop :=
  ∀ (s : State) (x : Context) (din : Bytes), s.context? = some x → x.mode = .cbc →
    messageFits s x.conf.Bb din.length →
    (∃ t dout, exec (.encrypt din) s = .next t ∧ cryptOk s t din dout ∧
      (∀ j < din.length / x.conf.Bb, blockAt dout x.conf.Bb j = blockE x.conf x.subkeys
        (xorBlock (blockAt din x.conf.Bb j) (if j = 0 then x.chain else blockAt dout x.conf.Bb (j - 1)))) ∧
      chainValue t x.conf.Bb = blockAt dout x.conf.Bb (din.length / x.conf.Bb - 1)) ∧
    (∃ t dout, exec (.decrypt din) s = .next t ∧ cryptOk s t din dout ∧
      (∀ j < din.length / x.conf.Bb, blockAt dout x.conf.Bb j =
        xorBlock (blockD x.conf x.subkeys (blockAt din x.conf.Bb j))
          (if j = 0 then x.chain else blockAt din x.conf.Bb (j - 1))) ∧
      chainValue t x.conf.Bb = blockAt din x.conf.Bb (din.length / x.conf.Bb - 1))

/-- CFB (R196, R197): `C_i = P_i XOR E(C_{i-1})`, `P_i = C_i XOR E(C_{i-1})`, `C_{-1}` the chain the command
finds, and `CHAIN` left at the last ciphertext block. -/
def Obligations.CfbChainsCiphertext : Prop :=
  ∀ (s : State) (x : Context) (din : Bytes), s.context? = some x → x.mode = .cfb →
    messageFits s x.conf.Bb din.length →
    (∃ t dout, exec (.encrypt din) s = .next t ∧ cryptOk s t din dout ∧
      (∀ j < din.length / x.conf.Bb, blockAt dout x.conf.Bb j = xorBlock (blockAt din x.conf.Bb j)
        (blockE x.conf x.subkeys (if j = 0 then x.chain else blockAt dout x.conf.Bb (j - 1)))) ∧
      chainValue t x.conf.Bb = blockAt dout x.conf.Bb (din.length / x.conf.Bb - 1)) ∧
    (∃ t dout, exec (.decrypt din) s = .next t ∧ cryptOk s t din dout ∧
      (∀ j < din.length / x.conf.Bb, blockAt dout x.conf.Bb j = xorBlock (blockAt din x.conf.Bb j)
        (blockE x.conf x.subkeys (if j = 0 then x.chain else blockAt din x.conf.Bb (j - 1)))) ∧
      chainValue t x.conf.Bb = blockAt din x.conf.Bb (din.length / x.conf.Bb - 1))

/-- OFB (R198, R199): `S_i = E(S_{i-1})`, `C_i = P_i XOR S_i`, `S_{-1}` the chain the command finds, the same
in both directions, and `CHAIN` left at the last keystream block. -/
def Obligations.OfbChainsKeystream : Prop :=
  ∀ (s : State) (x : Context) (din : Bytes) (i : Instr), s.context? = some x → x.mode = .ofb →
    messageFits s x.conf.Bb din.length → (i = .encrypt din ∨ i = .decrypt din) →
    ∃ t dout, exec i s = .next t ∧ cryptOk s t din dout ∧
      (∀ j < din.length / x.conf.Bb, blockAt dout x.conf.Bb j =
        xorBlock (blockAt din x.conf.Bb j) ((blockE x.conf x.subkeys)^[j + 1] x.chain)) ∧
      chainValue t x.conf.Bb = (blockE x.conf x.subkeys)^[din.length / x.conf.Bb] x.chain

/-- CTR (R200, R201): block `j` is XORed with `E` of the counter the command finds plus `j`, a big-endian
number of one block that wraps, the same in both directions, and `CHAIN` left at that counter plus the
number of blocks. -/
def Obligations.CtrCountsBlocks : Prop :=
  ∀ (s : State) (x : Context) (din : Bytes) (i : Instr), s.context? = some x → x.mode = .ctr →
    messageFits s x.conf.Bb din.length → (i = .encrypt din ∨ i = .decrypt din) →
    ∃ t dout, exec i s = .next t ∧ cryptOk s t din dout ∧
      (∀ j < din.length / x.conf.Bb, blockAt dout x.conf.Bb j = xorBlock (blockAt din x.conf.Bb j)
        (blockE x.conf x.subkeys (natToBe x.conf.Bb ((beNat x.chain + j) % 256 ^ x.conf.Bb)))) ∧
      chainValue t x.conf.Bb =
        natToBe x.conf.Bb ((beNat x.chain + din.length / x.conf.Bb) % 256 ^ x.conf.Bb)

/-- ENCRYPT and DECRYPT never change the selectors or `RK`, whatever state they run in and whatever they
respond, and in ECB not even `CHAIN`; on the host's side they add one response (R36, R26). -/
def Obligations.CryptWritesOnlyChain : Prop :=
  ∀ (s t : State) (din : Bytes) (i : Instr), (i = .encrypt din ∨ i = .decrypt din) → exec i s = .next t →
    sameKeys s t ∧ (s.mode = 0#3 → t.chain = s.chain) ∧ t.pending = s.pending ∧ t.maxBlocks = s.maxBlocks ∧
      ∃ r, t.responses = s.responses ++ [r]

/-- A message may be split at a block boundary into two commands of one direction: the outputs joined are the
output of one command, and the context left is the same (R204). -/
def Obligations.SplitMessageContinuesStream : Prop :=
  ∀ (s : State) (x : Context) (A B : Bytes), s.context? = some x → messageFits s x.conf.Bb A.length →
    messageFits s x.conf.Bb B.length → messageFits s x.conf.Bb (A ++ B).length →
    (∃ s1 s2 t CA CB, exec (.encrypt A) s = .next s1 ∧ cryptOk s s1 A CA ∧
      exec (.encrypt B) s1 = .next s2 ∧ cryptOk s1 s2 B CB ∧
      exec (.encrypt (A ++ B)) s = .next t ∧ cryptOk s t (A ++ B) (CA ++ CB) ∧ t.context? = s2.context?) ∧
    (∃ s1 s2 t CA CB, exec (.decrypt A) s = .next s1 ∧ cryptOk s s1 A CA ∧
      exec (.decrypt B) s1 = .next s2 ∧ cryptOk s1 s2 B CB ∧
      exec (.decrypt (A ++ B)) s = .next t ∧ cryptOk s t (A ++ B) (CA ++ CB) ∧ t.context? = s2.context?)

/-- Decrypting with a context initialised by the same command what an ENCRYPT gave returns the message, for
every configuration, mode, key and chain operand, and whatever the two states held before (R205). -/
def Obligations.FreshContextDecryptsMessage : Prop :=
  ∀ (i : Instr) (s u s1 s2 u1 : State) (M C : Bytes), exec i s = .next s1 →
    s1.responses = s.responses ++ [{ status := 0#3, dout := none }] → exec (.encrypt M) s1 = .next s2 →
    s2.responses = s1.responses ++ [{ status := 0#3, dout := some C }] → exec i u = .next u1 →
    u.maxBlocks = s.maxBlocks →
    ∃ u2, exec (.decrypt C) u1 = .next u2 ∧ u2.responses = u1.responses ++ [{ status := 0#3, dout := some M }]

/-- In CTR and OFB two messages of one length, encrypted from one chain value, give ciphertexts that differ as
the messages do, and leave the same chain value: the keystream does not depend on the data (R205, R274). -/
def Obligations.KeystreamIndependentOfData : Prop :=
  ∀ (s : State) (x : Context) (A B : Bytes), s.context? = some x → (x.mode = .ctr ∨ x.mode = .ofb) →
    messageFits s x.conf.Bb A.length → B.length = A.length →
    ∃ t u CA CB, exec (.encrypt A) s = .next t ∧ cryptOk s t A CA ∧ exec (.encrypt B) s = .next u ∧
      cryptOk s u B CB ∧ xorBlock CA CB = xorBlock A B ∧ chainValue t x.conf.Bb = chainValue u x.conf.Bb

/-- What the host observes of a run depends on the commands alone: from any two states without a context, on
platforms with the same bound, the same commands give the same responses, whatever the context fields, the
working registers and the free values are (R228, R34, R276). -/
def Obligations.RunResponsesDependOnlyOnCommands : Prop :=
  ∀ (s u : State), s.valid = 0#1 → u.valid = 0#1 → s.pending = u.pending → s.maxBlocks = u.maxBlocks →
    s.responses = u.responses →
    ∃ t v : State, Host.Core.run Sys2Proof.core s.pending.length s = .next t ∧
      Host.Core.run Sys2Proof.core u.pending.length u = .next v ∧ t.responses = v.responses ∧
      t.responses.length = s.responses.length + s.pending.length

/-! ### Word arithmetic and byte order -/

/-- Bit `i` of `ROTL(w, r, n)` is bit `(i - r) mod n` of `w`, the amount reduced modulo `n` (R91). -/
def Obligations.RotateLeftMovesBits : Prop :=
  ∀ (n : Nat) (w : Word n) (r i : Nat), i < n →
    (rotl w r).getLsbD i = w.getLsbD ((i + (n - r % n)) % n)

/-- Bit `i` of `ROTR(w, r, n)` is bit `(i + r) mod n` of `w`, the amount reduced modulo `n` (R92). -/
def Obligations.RotateRightMovesBits : Prop :=
  ∀ (n : Nat) (w : Word n) (r i : Nat), i < n →
    (rotr w r).getLsbD i = w.getLsbD ((i + r % n) % n)

/-- `ADD` and `SUB` are the masked sum and difference of the numbers: the carry and the borrow are dropped
(R93, R94). -/
def Obligations.AddAndSubWrap : Prop :=
  ∀ (n : Nat) (a b : Word n),
    (addW a b).toNat = (a.toNat + b.toNat) &&& maskNat n ∧
      (subW a b).toNat = (a.toNat + 2 ^ n - b.toNat) &&& maskNat n

/-- The eight arithmetic laws of the word operations, which the spec itself derives from its rules R91 to R96
(R98), and that ROTR by `r` is ROTL by `n - (r mod n)` (derived in R92). -/
def Obligations.WordLaws : Prop :=
  (∀ (n : Nat) (a b d w : Word n) (r s : Nat),
    ((rotl w r).toNat < 2 ^ n ∧ (rotr w r).toNat < 2 ^ n ∧ (addW a b).toNat < 2 ^ n ∧ (subW a b).toNat < 2 ^ n ∧
      (xorW a b).toNat < 2 ^ n ∧ (andW a b).toNat < 2 ^ n) ∧
    (rotr (rotl w r) r = w ∧ rotl (rotr w r) r = w ∧ rotr w r = rotl w (n - r % n)) ∧
    (rotl w r = rotl w (r % n) ∧ rotr w r = rotr w (r % n)) ∧
    rotl (rotl w r) s = rotl w (r + s) ∧
    (rotl (xorW a b) r = xorW (rotl a r) (rotl b r) ∧ rotl (andW a b) r = andW (rotl a r) (rotl b r) ∧
      rotr (xorW a b) r = xorW (rotr a r) (rotr b r) ∧ rotr (andW a b) r = andW (rotr a r) (rotr b r)) ∧
    (subW (addW a b) b = a ∧ addW (subW a b) b = a) ∧
    (addW a b = addW b a ∧ addW (addW a b) d = addW a (addW b d)) ∧
    xorW (xorW a b) b = a) ∧
  ∃ (a b : Word 16) (r : Nat), rotl (addW a b) r ≠ addW (rotl a r) (rotl b r)

/-- Words in buffers are little-endian: `BytesToWord` is the sum of `s[k] * 2^(8k)`, byte `k` of `WordToBytes`
is `w[8k+7:8k]`, and each undoes the other (R52). -/
def Obligations.WordsAreLittleEndian : Prop :=
  ∀ n : Nat, n % 8 = 0 →
    (∀ s : Bytes, s.length = n / 8 →
      (bytesToWord n s).toNat = ∑ k ∈ Finset.range (n / 8), (s.getD k 0#8).toNat * 2 ^ (8 * k) ∧
        wordToBytes (bytesToWord n s) = s) ∧
    ∀ w : Word n, (wordToBytes w).length = n / 8 ∧ bytesToWord n (wordToBytes w) = w ∧
      ∀ k < n / 8, ((wordToBytes w).getD k 0#8).toNat = w.toNat / 2 ^ (8 * k) % 256

/-- A block is `y` then `x`, the little-endian serialisation of `x ‖ y`; splitting a block into words and
joining words into a block undo each other (R53). -/
def Obligations.BlockHoldsYThenX : Prop :=
  ∀ n : Nat, n % 8 = 0 →
    (∀ x y : Word n, wordsToBlock (x, y) = wordToBytes y ++ wordToBytes x ∧
      leNat (wordsToBlock (x, y)) = x.toNat * 2 ^ n + y.toNat ∧ blockToWords n (wordsToBlock (x, y)) = (x, y)) ∧
    ∀ b : Bytes, b.length = 2 * (n / 8) → wordsToBlock (blockToWords n b) = b

/-- `INC_BE` adds one to a big-endian number of the string's length, wrapping; bytewise, the last byte grows by
one, and a byte that becomes 00 carries into the byte before it (R202). -/
def Obligations.IncrementIsBigEndianAndWraps : Prop :=
  (∀ s : Bytes, (incBe s).length = s.length ∧ beNat (incBe s) = (beNat s + 1) % 256 ^ s.length) ∧
  (∀ (s : Bytes) (b : Byte), b ≠ 0xff#8 → incBe (s ++ [b]) = s ++ [b + 1#8]) ∧
  (∀ s : Bytes, incBe (s ++ [0xff#8]) = incBe s ++ [0x00#8])

/-- `XOR_BLOCK` is byte by byte: byte `k` of the result is the exclusive-or of the two bytes `k` (R203). -/
def Obligations.XorBlockIsBytewise : Prop :=
  ∀ a b : Bytes, a.length = b.length → (xorBlock a b).length = a.length ∧
    ∀ k < a.length, (xorBlock a b).getD k 0#8 = a.getD k 0#8 ^^^ b.getD k 0#8

/-! ### Configuration table, key schedule and round transform -/

/-- The twenty rows of the table: for each CFG the pair, `n`, `m`, Simon's `T` and `zid`, Speck's `T`, `alpha` and
`beta`, with `Kb` and `Bb`; and CFG 10 to 15 resolve to nothing (R135, R132, R111). -/
def Obligations.ConfigurationTableRows : Prop :=
  (List.range 16).map (fun i => resolve .simon (BitVec.ofNat 4 i)) =
    [some ⟨64, 32, 16, 4, 32, 4, 8, .simon 0⟩, some ⟨72, 48, 24, 3, 36, 6, 9, .simon 0⟩,
     some ⟨96, 48, 24, 4, 36, 6, 12, .simon 1⟩, some ⟨96, 64, 32, 3, 42, 8, 12, .simon 2⟩,
     some ⟨128, 64, 32, 4, 44, 8, 16, .simon 3⟩, some ⟨96, 96, 48, 2, 52, 12, 12, .simon 2⟩,
     some ⟨144, 96, 48, 3, 54, 12, 18, .simon 3⟩, some ⟨128, 128, 64, 2, 68, 16, 16, .simon 2⟩,
     some ⟨192, 128, 64, 3, 69, 16, 24, .simon 3⟩, some ⟨256, 128, 64, 4, 72, 16, 32, .simon 4⟩,
     none, none, none, none, none, none] ∧
  (List.range 16).map (fun i => resolve .speck (BitVec.ofNat 4 i)) =
    [some ⟨64, 32, 16, 4, 22, 4, 8, .speck 7 2⟩, some ⟨72, 48, 24, 3, 22, 6, 9, .speck 8 3⟩,
     some ⟨96, 48, 24, 4, 23, 6, 12, .speck 8 3⟩, some ⟨96, 64, 32, 3, 26, 8, 12, .speck 8 3⟩,
     some ⟨128, 64, 32, 4, 27, 8, 16, .speck 8 3⟩, some ⟨96, 96, 48, 2, 28, 12, 12, .speck 8 3⟩,
     some ⟨144, 96, 48, 3, 29, 12, 18, .speck 8 3⟩, some ⟨128, 128, 64, 2, 32, 16, 16, .speck 8 3⟩,
     some ⟨192, 128, 64, 3, 33, 16, 24, .speck 8 3⟩, some ⟨256, 128, 64, 4, 34, 16, 32, .speck 8 3⟩,
     none, none, none, none, none, none]

/-- The Simon schedule: `T` subkeys, the first `m` of them the key words, and every later one by the recurrence
of its `m` (R147; R144, R145, R146). -/
def Obligations.SimonScheduleRecurrence : Prop :=
  ∀ (n m T zid : Nat) (kw : List (Word n)), 2 ≤ m → m ≤ 4 → m < T → kw.length = m →
    (ksSimon m T zid kw).length = T ∧
    (∀ j < m, (ksSimon m T zid kw).getD j 0#n = kw.getD j 0#n) ∧
    ∀ i, m ≤ i → i < T →
      let k := fun j => (ksSimon m T zid kw).getD j 0#n
      let t := rotr (k (i - 1)) 3 ^^^ (if m = 4 then k (i - 3) else 0#n)
      k i = (mask n ^^^ 3#n) ^^^ BitVec.ofNat n (zBit zid ((i - m) % 62)) ^^^ k (i - m) ^^^ (t ^^^ rotr t 1)

/-- The Speck schedule: `T` subkeys and a sequence `L` of round words, beginning with the key words, each step
a Speck round on `(L[i], k[i])` with the index `i` as the subkey (R148). -/
def Obligations.SpeckScheduleRecurrence : Prop :=
  ∀ (n m T alpha beta : Nat) (kw : List (Word n)), 2 ≤ m → 1 ≤ T → kw.length = m →
    (ksSpeck T alpha beta kw).length = T ∧
    ∃ L : List (Word n), L.length = m + T - 2 ∧
      (ksSpeck T alpha beta kw).getD 0 0#n = kw.getD 0 0#n ∧
      (∀ j, j + 2 ≤ m → L.getD j 0#n = kw.getD (j + 1) 0#n) ∧
      ∀ i, i + 2 ≤ T →
        let k := fun j => (ksSpeck T alpha beta kw).getD j 0#n
        L.getD (i + m - 1) 0#n = (rotr (L.getD i 0#n) alpha + k i) ^^^ BitVec.ofNat n i ∧
        k (i + 1) = rotl (k i) beta ^^^ L.getD (i + m - 1) 0#n

/-- The five z sequences, character `t` of each string being bit `t` of the sequence (R143). -/
def Obligations.ZSequences : Prop :=
  (List.range 5).map (fun j => (List.range 62).map (zBit j)) =
    ["11111010001001010110000111001101111101000100101011000011100110",
     "10001110111110010011000010110101000111011111001001100001011010",
     "10101111011100000011010010011000101000010001111110010110110011",
     "11011011101011000110010111100000010010001010011100110100001111",
     "11010001111001101011011000100000010111000011001010010011101111"].map
      (fun z => z.toList.map (fun ch => if ch = '1' then 1 else 0))

/-- Bit by bit, Simon's `f`: bit `i` is the and of bits `i - 1` and `i - 8`, exclusive-or bit `i - 2`, places modulo
`n`; a round replaces `(x, y)` by `(y ^ f(x) ^ k, x)` (R160, R161). -/
def Obligations.SimonRoundBitByBit : Prop :=
  ∀ (n : Nat) (x y k : Word n),
    (∀ i < n, (simonF x).getLsbD i =
      ((x.getLsbD ((i + (n - 1 % n)) % n) && x.getLsbD ((i + (n - 8 % n)) % n)) ^^
        x.getLsbD ((i + (n - 2 % n)) % n))) ∧
    (simonRF (x, y) k).2 = x ∧
    ∀ i < n, (simonRF (x, y) k).1.getLsbD i = (y.getLsbD i ^^ (simonF x).getLsbD i ^^ k.getLsbD i)

/-- As numbers, the Speck round: `x' = (ROTR(x, alpha) + y mod 2^n) ^ k`, the carry dropped, and `y'`, bit by bit,
is `y` rotated left by `beta`, exclusive-or the new `x'` (R165). -/
def Obligations.SpeckRoundOnNumbers : Prop :=
  ∀ (n alpha beta : Nat) (x y k : Word n),
    (speckRF alpha beta (x, y) k).1.toNat = ((rotr x alpha).toNat + y.toNat) % 2 ^ n ^^^ k.toNat ∧
    ∀ i < n, (speckRF alpha beta (x, y) k).2.getLsbD i =
      (y.getLsbD ((i + (n - beta % n)) % n) ^^ (speckRF alpha beta (x, y) k).1.getLsbD i)

/-- `E` and `D` run the family's round once for each subkey, from the pair a block holds to the pair it is given:
`E` with the subkeys from first to last, `D` with the inverse rounds and the subkeys from last to first
(R163, R164, R167, R168). -/
def Obligations.TransformsRunRoundsInOrder : Prop :=
  ∀ (c : Configuration) (ks : List (Word c.n)) (b : Bytes),
    (∃ p : Nat → Word c.n × Word c.n, p 0 = blockToWords c.n b ∧ blockE c ks b = wordsToBlock (p ks.length) ∧
      ∀ i (h : i < ks.length), p (i + 1) = match c.params with
        | .simon _ => simonRF (p i) ks[i]
        | .speck alpha beta => speckRF alpha beta (p i) ks[i]) ∧
    (∃ p : Nat → Word c.n × Word c.n, p ks.length = blockToWords c.n b ∧ blockD c ks b = wordsToBlock (p 0) ∧
      ∀ i (h : i < ks.length), p i = match c.params with
        | .simon _ => simonRI (p (i + 1)) ks[i]
        | .speck alpha beta => speckRI alpha beta (p (i + 1)) ks[i])

/-- The inverse Simon round undoes the round, and the round undoes the inverse round; the inverse is the round
with the two words exchanged on the way in and on the way out (R162, which derives it from
R161). -/
def Obligations.SimonRoundsInvert : Prop :=
  ∀ (n : Nat) (p : Word n × Word n) (k : Word n),
    simonRI (simonRF p k) k = p ∧ simonRF (simonRI p k) k = p ∧ simonRI p k = (simonRF p.swap k).swap

/-- The inverse Speck round recovers `y` first, then `x` from the recovered `y`, the borrow dropped; it undoes
the round, and the round undoes it, for any rotation amounts (R166, which derives that from R165). -/
def Obligations.SpeckRoundsInvert : Prop :=
  ∀ (n alpha beta : Nat) (p : Word n × Word n) (k : Word n),
    (speckRI alpha beta p k).2 = rotr (p.2 ^^^ p.1) beta ∧
      (speckRI alpha beta p k).1 = rotl ((p.1 ^^^ k) - (speckRI alpha beta p k).2) alpha ∧
      speckRI alpha beta (speckRF alpha beta p k) k = p ∧ speckRF alpha beta (speckRI alpha beta p k) k = p

/-- `D(E(b)) = b` and `E(D(b)) = b` on blocks, for each of the twenty configurations and any subkeys: each is a
permutation of the blocks and the other its inverse (R169). -/
def Obligations.SingleBlockTransformsInvert : Prop :=
  ∀ (f : Family) (cfg : BitVec 4) (c : Configuration) (ks : List (Word c.n)) (b : Bytes),
    resolve f cfg = some c → b.length = c.Bb →
    blockD c ks (blockE c ks b) = b ∧ blockE c ks (blockD c ks b) = b ∧
      (blockE c ks b).length = c.Bb ∧ (blockD c ks b).length = c.Bb

/-! ### The numbers of the selectors, and the algorithm of each configuration -/

/-- The word of every command as a number, the selectors by their numbers: `FAMILY * 4 + CFG * 8 + MODE * 128 +
IVP * 1024 + CTRP * 2048` for an INIT, Simon 0 and Speck 1, ECB 0, CTR 1, CBC 2, CFB 3 and OFB 4, IVP and
CTRP 1 exactly for an operand that is supplied; 1 for ENCRYPT and 2 for DECRYPT. Each supplied operand is
in its own buffer (R72, R73, R75, R76, R82). -/
def Obligations.EncodedWordIsComposedOfSelectorNumbers : Prop :=
  (∀ (i : Instr) (f : Family) (cfg : BitVec 4) (md : Mode) (key : Bytes) (iv ctr : Option Bytes),
    commandFields i = .init f cfg md key iv ctr →
    (encode i).cmd.toNat =
      familyNumber f * 4 + cfg.toNat * 8 + modeNumber md * 128 +
      (if iv.isSome then 1 else 0) * 1024 + (if ctr.isSome then 1 else 0) * 2048 ∧
    (encode i).key = key ∧ (∀ b, iv = some b → (encode i).iv = b) ∧ ∀ b, ctr = some b → (encode i).ctr = b) ∧
  ∀ din : Bytes,
    ((encode (.encrypt din)).cmd.toNat = 1 ∧ (encode (.encrypt din)).din = din) ∧
    ((encode (.decrypt din)).cmd.toNat = 2 ∧ (encode (.decrypt din)).din = din)

/-- What any command word that decodes stands for, by its number: bit 2 is 0 for Simon and 1 for Speck, bits 6:3
are CFG, bits 9:7 are 0 for ECB, 1 for CTR, 2 for CBC, 3 for CFB and 4 for OFB, an operand is null exactly
when its presence bit is 0, and each buffer is the operand of its name (R71, R72, R73, R75, R76). -/
def Obligations.DecodedCommandHasSelectorsOfWord : Prop :=
  ∀ (t : Transaction) (i : Instr), decode t = .instr i →
    match commandFields i with
    | .init f cfg md key iv ctr =>
      t.cmd.toNat % 4 = 0 ∧
      t.cmd.toNat / 4 % 2 = familyNumber f ∧
      t.cmd.toNat / 8 % 16 = cfg.toNat ∧
      t.cmd.toNat / 128 % 8 = modeNumber md ∧
      key = t.key ∧
      iv = (if t.cmd.toNat / 1024 % 2 = 1 then some t.iv else none) ∧
      ctr = (if t.cmd.toNat / 2048 % 2 = 1 then some t.ctr else none)
    | .encrypt din => t.cmd.toNat = 1 ∧ din = t.din
    | .decrypt din => t.cmd.toNat = 2 ∧ din = t.din

/-- The numbers `CTX.FAMILY`, `CTX.CFG` and `CTX.MODE` hold: every INIT that responds OK stores 0 for Simon, 1 for
Speck, its CFG, and 0 for ECB, 1 for CTR, 2 for CBC, 3 for CFB, 4 for OFB; and the context that a command
reads from any state has the family, the CFG and the mode of the numbers stored, and the configuration they
resolve to (R22, R23, R24). -/
def Obligations.ContextHoldsSelectorNumbers : Prop :=
  (∀ (i : Instr) (f : Family) (cfg : BitVec 4) (md : Mode) (key : Bytes) (iv ctr : Option Bytes) (s t : State),
    commandFields i = .init f cfg md key iv ctr → exec i s = .next t →
    t.responses = s.responses ++ [{ status := 0#3, dout := none }] →
    t.valid = 1#1 ∧ t.family.toNat = familyNumber f ∧ t.cfg = cfg ∧
      t.mode.toNat = modeNumber md) ∧
  ∀ (s : State) (x : Context), s.context? = some x →
    s.family.toNat = familyNumber x.family ∧ s.cfg = x.cfg ∧
      s.mode.toNat = modeNumber x.mode ∧
      resolve x.family x.cfg = some x.conf

/-- The key schedule of a configuration: the family alone decides the algorithm, and the configuration its
parameters. For Simon it is `KS_SIMON` with the configuration's `m`, `T` and `zid`: the key
words, then the recurrence. For Speck it is `KS_SPECK` with its `T`, `alpha` and `beta`: the first key word,
then a Speck round on `(L[i], k[i])` with the index `i` as the subkey, `L` beginning with the other key
words (R140, R141, R147, R148). -/
def Obligations.KeyScheduleRunsFamilyRecurrence : Prop :=
  ∀ (f : Family) (cfg : BitVec 4) (c : Configuration) (kw : List (Word c.n)),
    resolve f cfg = some c → kw.length = c.m →
    let k := fun j => (keySchedule c kw).getD j 0#c.n
    (keySchedule c kw).length = c.T ∧
    match f with
    | .simon => ∃ zid, c.params = .simon zid ∧ keySchedule c kw = ksSimon c.m c.T zid kw ∧
        (∀ j < c.m, k j = kw.getD j 0#c.n) ∧
        ∀ i, c.m ≤ i → i < c.T →
          let t := rotr (k (i - 1)) 3 ^^^ (if c.m = 4 then k (i - 3) else 0#c.n)
          k i = (mask c.n ^^^ 3#c.n) ^^^ BitVec.ofNat c.n (zBit zid ((i - c.m) % 62)) ^^^ k (i - c.m) ^^^
            (t ^^^ rotr t 1)
    | .speck => ∃ alpha beta, c.params = .speck alpha beta ∧ keySchedule c kw = ksSpeck c.T alpha beta kw ∧
        ∃ L : List (Word c.n), L.length = c.m + c.T - 2 ∧ k 0 = kw.getD 0 0#c.n ∧
          (∀ j, j + 2 ≤ c.m → L.getD j 0#c.n = kw.getD (j + 1) 0#c.n) ∧
          ∀ i, i + 2 ≤ c.T →
            L.getD (i + c.m - 1) 0#c.n = (rotr (L.getD i 0#c.n) alpha + k i) ^^^ BitVec.ofNat c.n i ∧
            k (i + 1) = rotl (k i) beta ^^^ L.getD (i + c.m - 1) 0#c.n
end

