-- ==== Sys2Proof/Laws/Buffers.lean ====
section
/-! SUPPORT. What the buffer operations give: lengths, and when an access is inside its buffer (20_memory.md R52 to R57,
R64). -/

namespace Sys2Proof.Machine

/-- MemRead answers exactly inside the buffer, with the bytes there. -/
theorem memRead_eq_some_iff {buf : Bytes} {off len : Nat} {b : Bytes} :
    memRead buf off len = some b ↔ off + len ≤ buf.length ∧ b = (buf.drop off).take len := by
  unfold memRead
  split <;> simp_all [eq_comm]

/-- MemWrite answers exactly inside the buffer, with those bytes replaced. -/
theorem memWrite_eq_some_iff {buf : Bytes} {off len : Nat} {v b : Bytes} :
    memWrite buf off len v = some b ↔
      (v.length = len ∧ off + len ≤ buf.length) ∧ b = buf.take off ++ v ++ buf.drop (off + len) := by
  unfold memWrite
  by_cases h : v.length = len ∧ off + len ≤ buf.length
  · rw [if_pos h, Option.some.injEq]
    exact ⟨fun e => ⟨h, e.symm⟩, fun e => e.2.symm⟩
  · simp [h]

/-- A block of a buffer read through MemRead. -/
theorem memRead_block {buf : Bytes} {Bb j : Nat} (h : (j + 1) * Bb ≤ buf.length) :
    memRead buf (j * Bb) Bb = some (blockAt buf Bb j) :=
  memRead_eq_some_iff.2 ⟨by rw [Nat.succ_mul] at h; exact h, rfl⟩

theorem blockAt_length {buf : Bytes} {Bb j : Nat} (h : (j + 1) * Bb ≤ buf.length) :
    (blockAt buf Bb j).length = Bb := by
  rw [Nat.succ_mul] at h
  simp only [blockAt, List.length_take, List.length_drop]
  omega

@[simp] theorem natToBe_length (len v : Nat) : (natToBe len v).length = len := by simp [natToBe]

@[simp] theorem wordToBytes_length {n : Nat} (w : Word n) : (wordToBytes w).length = n / 8 := by
  simp [wordToBytes]

@[simp] theorem wordsToBlock_length {n : Nat} (p : Word n × Word n) :
    (wordsToBlock p).length = n / 8 + n / 8 := by
  simp [wordsToBlock]

@[simp] theorem xorBlock_length (a b : Bytes) : (xorBlock a b).length = min a.length b.length := by
  simp [xorBlock]

/-- Reading words succeeds inside the buffer and gives the word at each word offset. -/
theorem readWords_eq {n : Nat} {buf : Bytes} (count j : Nat) (h : (j + count) * (n / 8) ≤ buf.length) :
    readWords n buf count j =
      some ((List.range count).map (fun k => bytesToWord n (blockAt buf (n / 8) (j + k)))) := by
  induction count generalizing j with
  | zero => simp [readWords]
  | succ count ih =>
    have hj : (j + 1) * (n / 8) ≤ buf.length :=
      le_trans (Nat.mul_le_mul_right _ (by omega)) h
    have hrec := ih (j + 1) (by rw [Nat.add_assoc, Nat.add_comm 1 count]; exact h)
    simp only [readWords, memRead_block hj, hrec, List.range_succ_eq_map, List.map_cons, List.map_map,
      Nat.add_zero, Option.some.injEq, List.cons.injEq, true_and]
    refine List.map_congr_left fun k _ => ?_
    simp [Nat.add_assoc, Nat.add_comm 1 k]

end Sys2Proof.Machine
end

