-- ==== Sys2Proof/Laws/Config.lean ====
section
/-! SUPPORT. What a resolved configuration satisfies, said once for all twenty rows (41_config_table.md R111 to R135). -/

namespace Sys2Proof.Machine

/-- A resolved configuration is the record of one of the ten pairs. -/
theorem resolve_eq_some_iff {f : Family} {cfg : BitVec 4} {c : Configuration} :
    resolve f cfg = some c ↔ ∃ K B, pairOf cfg = some (K, B) ∧
      c = { K := K, B := B, n := B / 2, m := K / (B / 2), T := (rowOf f cfg (B / 2)).1, Bb := B / 8,
            Kb := K / 8, params := (rowOf f cfg (B / 2)).2 } := by
  unfold resolve
  cases h : pairOf cfg with
  | none => simp
  | some p =>
    obtain ⟨K, B⟩ := p
    simp [eq_comm]

/-- The numbers every one of the twenty rows satisfies. -/
def rowFacts (c : Configuration) : Bool :=
  c.n % 8 == 0 && c.n / 8 + c.n / 8 == c.Bb && c.m * (c.n / 8) == c.Kb && decide (0 < c.n) && decide (c.n ≤ 64) &&
    decide (0 < c.Bb) && decide (c.Bb ≤ 16) && decide (2 ≤ c.m) && decide (c.m ≤ 4) && decide (c.m < c.T) &&
    decide (c.T ≤ 72)

theorem rowFacts_all :
    ∀ (f : Fin 2) (cfg : Fin 16),
      ((resolve (if f = 0 then .simon else .speck) (BitVec.ofNat 4 cfg)).map rowFacts).getD true = true := by
  decide

theorem rowFacts_of_resolve {f : Family} {cfg : BitVec 4} {c : Configuration} (h : resolve f cfg = some c) :
    rowFacts c = true := by
  have hc : BitVec.ofNat 4 (⟨cfg.toNat, cfg.isLt⟩ : Fin 16) = cfg := by simp
  cases f
  · have := rowFacts_all 0 ⟨cfg.toNat, cfg.isLt⟩
    rw [hc] at this
    simpa [h] using this
  · have := rowFacts_all 1 ⟨cfg.toNat, cfg.isLt⟩
    rw [hc] at this
    simpa [h] using this

section Facts
variable {f : Family} {cfg : BitVec 4} {c : Configuration} (h : resolve f cfg = some c)
include h

theorem resolve_n_mod : c.n % 8 = 0 := by have := rowFacts_of_resolve h; simp [rowFacts] at this; omega
theorem resolve_block : c.n / 8 + c.n / 8 = c.Bb := by have := rowFacts_of_resolve h; simp [rowFacts] at this; omega
theorem resolve_key : c.m * (c.n / 8) = c.Kb := by have := rowFacts_of_resolve h; simp [rowFacts] at this; tauto
theorem resolve_n_pos : 0 < c.n := by have := rowFacts_of_resolve h; simp [rowFacts] at this; omega
theorem resolve_n_le : c.n ≤ 64 := by have := rowFacts_of_resolve h; simp [rowFacts] at this; omega
theorem resolve_Bb_pos : 0 < c.Bb := by have := rowFacts_of_resolve h; simp [rowFacts] at this; omega
theorem resolve_Bb_le : c.Bb ≤ 16 := by have := rowFacts_of_resolve h; simp [rowFacts] at this; omega
theorem resolve_m_ge : 2 ≤ c.m := by have := rowFacts_of_resolve h; simp [rowFacts] at this; omega
theorem resolve_m_le : c.m ≤ 4 := by have := rowFacts_of_resolve h; simp [rowFacts] at this; omega
theorem resolve_m_lt_T : c.m < c.T := by have := rowFacts_of_resolve h; simp [rowFacts] at this; omega
theorem resolve_T_le : c.T ≤ 72 := by have := rowFacts_of_resolve h; simp [rowFacts] at this; omega

end Facts

end Sys2Proof.Machine
end

