-- ==== Sys2Proof/Laws/Modes.lean ====
section
/-! SUPPORT. What the block loop does, said once for every step that keeps the block size (44_mode_layer.md R191). -/

namespace Sys2Proof.Machine

/-- A step that gives blocks of `Bb` bytes from blocks of `Bb` bytes. -/
def keepsBlocks (step : Bytes → Bytes → Bytes × Bytes) (Bb : Nat) : Prop :=
  ∀ chain inp : Bytes, chain.length = Bb → inp.length = Bb →
    (step chain inp).1.length = Bb ∧ (step chain inp).2.length = Bb

/-- `CHAIN` before block `j` of a run. -/
def chainBefore (step : Bytes → Bytes → Bytes × Bytes) (Bb : Nat) (din chain : Bytes) : Nat → Bytes
  | 0 => chain
  | j + 1 => (step (chainBefore step Bb din chain j) (blockAt din Bb j)).2

/-- Output block `j` of a run. -/
def outBlock (step : Bytes → Bytes → Bytes × Bytes) (Bb : Nat) (din chain : Bytes) (j : Nat) : Bytes :=
  (step (chainBefore step Bb din chain j) (blockAt din Bb j)).1

section Run
variable {step : Bytes → Bytes → Bytes × Bytes} {Bb : Nat} {din chain : Bytes}

theorem chainBefore_length (hs : keepsBlocks step Bb) (hc : chain.length = Bb) :
    ∀ j, j * Bb ≤ din.length → (chainBefore step Bb din chain j).length = Bb
  | 0, _ => hc
  | j + 1, h =>
    (hs _ _ (chainBefore_length hs hc j (le_trans (Nat.mul_le_mul_right _ (Nat.le_succ j)) h))
      (blockAt_length h)).2

theorem outBlock_length (hs : keepsBlocks step Bb) (hc : chain.length = Bb) {j : Nat}
    (h : (j + 1) * Bb ≤ din.length) : (outBlock step Bb din chain j).length = Bb :=
  (hs _ _ (chainBefore_length hs hc j (le_trans (Nat.mul_le_mul_right _ (Nat.le_succ j)) h))
    (blockAt_length h)).1

/-- The loop from block `blk` on, with the earlier blocks in place: it writes the later blocks and ends with
the chain after the last. -/
theorem modeLoop_eq (hs : keepsBlocks step Bb) (hc : chain.length = Bb) :
    ∀ (count blk : Nat) (pre rest : Bytes), pre.length = blk * Bb → rest.length = count * Bb →
      din.length = (blk + count) * Bb →
      modeLoop step Bb din count blk (chainBefore step Bb din chain blk) (pre ++ rest) =
        some (pre ++ (List.range count).flatMap (fun k => outBlock step Bb din chain (blk + k)),
          chainBefore step Bb din chain (blk + count))
  | 0, blk, pre, rest, _, hr, _ => by
    have : rest = [] := List.length_eq_zero_iff.1 (by simpa using hr)
    simp [modeLoop, this]
  | count + 1, blk, pre, rest, hp, hr, hd => by
    have hblk : (blk + 1) * Bb ≤ din.length := by
      rw [hd]; exact Nat.mul_le_mul_right _ (by omega)
    have hout : (outBlock step Bb din chain blk).length = Bb := outBlock_length hs hc hblk
    have hwrite : memWrite (pre ++ rest) (blk * Bb) Bb (outBlock step Bb din chain blk) =
        some ((pre ++ outBlock step Bb din chain blk) ++ rest.drop Bb) := by
      refine memWrite_eq_some_iff.2 ⟨⟨hout, ?_⟩, ?_⟩
      · simp only [List.length_append, hp, hr, Nat.succ_mul]; omega
      · have e1 : (pre ++ rest).take (blk * Bb) = pre := by rw [← hp]; simp
        have e2 : (pre ++ rest).drop (blk * Bb + Bb) = rest.drop Bb := by rw [← hp]; simp
        rw [e1, e2]
    have hrec := modeLoop_eq hs hc count (blk + 1) (pre ++ outBlock step Bb din chain blk) (rest.drop Bb)
      (by rw [List.length_append, hp, hout, Nat.succ_mul])
      (by rw [List.length_drop, hr, Nat.succ_mul]; omega)
      (by rw [hd]; congr 1; omega)
    have hchain : (step (chainBefore step Bb din chain blk) (blockAt din Bb blk)).2 =
        chainBefore step Bb din chain (blk + 1) := rfl
    simp only [modeLoop, memRead_block hblk]
    rw [show (step (chainBefore step Bb din chain blk) (blockAt din Bb blk)).1 =
      outBlock step Bb din chain blk from rfl, hwrite]
    dsimp only
    rw [hchain, hrec, List.range_succ_eq_map, List.flatMap_cons, List.flatMap_map, List.append_assoc]
    simp [Nat.add_assoc, Nat.add_comm 1]

/-- The length of `count` blocks of `Bb` bytes in a row. -/
theorem flatMap_blocks_length {g : Nat → Bytes} :
    ∀ {count : Nat}, (∀ k < count, (g k).length = Bb) → ((List.range count).flatMap g).length = count * Bb
  | 0, _ => by simp
  | count + 1, h => by
    rw [List.range_succ, List.flatMap_append, List.length_append,
      flatMap_blocks_length (fun k hk => h k (by omega)), Nat.succ_mul]
    simp [h count (by omega)]

/-- Block `j` of blocks in a row. -/
theorem blockAt_flatMap {g : Nat → Bytes} :
    ∀ {count : Nat}, (∀ k < count, (g k).length = Bb) → ∀ j < count,
      blockAt ((List.range count).flatMap g) Bb j = g j
  | 0, _, j, hj => by omega
  | count + 1, h, j, hj => by
    have hlen := flatMap_blocks_length (Bb := Bb) (count := count) (g := g) (fun k hk => h k (by omega))
    rw [List.range_succ, List.flatMap_append]
    rcases Nat.lt_or_ge j count with hlt | hge
    · rw [← blockAt_flatMap (fun k hk => h k (by omega)) j hlt]
      have hb : (j + 1) * Bb ≤ count * Bb := Nat.mul_le_mul_right _ hlt
      rw [Nat.succ_mul] at hb
      unfold blockAt
      rw [List.drop_append_of_le_length (by omega), List.take_append_of_le_length]
      rw [List.length_drop]; omega
    · obtain rfl : j = count := by omega
      unfold blockAt
      rw [← hlen]
      simp [List.take_of_length_le, h j (by omega)]

/-- MODE_RUN over `N` whole blocks: every output block is the step's, and the final chain is the one after
the last block. -/
theorem modeRun_eq (hs : keepsBlocks step Bb) (hc : chain.length = Bb) {N : Nat} (hB : 0 < Bb)
    (hd : din.length = N * Bb) :
    ∃ dout, modeRun step Bb chain din = some (dout, chainBefore step Bb din chain N) ∧
      dout.length = din.length ∧ ∀ j < N, blockAt dout Bb j = outBlock step Bb din chain j := by
  have hN : din.length / Bb = N := by rw [hd, Nat.mul_div_cancel _ hB]
  have hout : ∀ k < N, (outBlock step Bb din chain k).length = Bb := fun k hk =>
    outBlock_length hs hc (by rw [hd]; exact Nat.mul_le_mul_right _ hk)
  refine ⟨(List.range N).flatMap (outBlock step Bb din chain), ?_, ?_, ?_⟩
  · have := modeLoop_eq (din := din) hs hc N 0 [] (List.replicate din.length 0#8) (by simp) (by simp [hd])
      (by simp [hd])
    simpa [modeRun, hN, chainBefore] using this
  · rw [flatMap_blocks_length hout, hd]
  · exact fun j hj => blockAt_flatMap hout j hj

end Run

end Sys2Proof.Machine
end

