-- ==== Sys2Proof/Laws/State.lean ====
section
/-! SUPPORT. One lemma per field per update of State, so that no later proof unfolds an update. -/

namespace Sys2Proof.Machine

section Respond
variable (s : State) (st : Status) (d : Option Bytes)

@[simp] theorem State.respond_valid : (s.respond st d).valid = s.valid := rfl
@[simp] theorem State.respond_family : (s.respond st d).family = s.family := rfl
@[simp] theorem State.respond_cfg : (s.respond st d).cfg = s.cfg := rfl
@[simp] theorem State.respond_mode : (s.respond st d).mode = s.mode := rfl
@[simp] theorem State.respond_rk : (s.respond st d).rk = s.rk := rfl
@[simp] theorem State.respond_chain : (s.respond st d).chain = s.chain := rfl
@[simp] theorem State.respond_work : (s.respond st d).work = s.work := rfl
@[simp] theorem State.respond_maxBlocks : (s.respond st d).maxBlocks = s.maxBlocks := rfl
@[simp] theorem State.respond_pending : (s.respond st d).pending = s.pending := rfl
@[simp] theorem State.respond_responses :
    (s.respond st d).responses = s.responses ++ [{ status := statusCode st, dout := d }] := rfl
@[simp] theorem State.respond_fresh : (s.respond st d).fresh = s.fresh := rfl

@[simp] theorem State.raise_valid : (s.raise st).valid = s.valid := rfl
@[simp] theorem State.raise_family : (s.raise st).family = s.family := rfl
@[simp] theorem State.raise_cfg : (s.raise st).cfg = s.cfg := rfl
@[simp] theorem State.raise_mode : (s.raise st).mode = s.mode := rfl
@[simp] theorem State.raise_rk : (s.raise st).rk = s.rk := rfl
@[simp] theorem State.raise_chain : (s.raise st).chain = s.chain := rfl
@[simp] theorem State.raise_work : (s.raise st).work = s.work := rfl
@[simp] theorem State.raise_maxBlocks : (s.raise st).maxBlocks = s.maxBlocks := rfl
@[simp] theorem State.raise_pending : (s.raise st).pending = s.pending := rfl
@[simp] theorem State.raise_responses :
    (s.raise st).responses = s.responses ++ [{ status := statusCode st, dout := none }] := rfl
@[simp] theorem State.raise_fresh : (s.raise st).fresh = s.fresh := rfl

end Respond

section RetireWork
variable (s : State)

@[simp] theorem State.retireWork_valid : s.retireWork.valid = s.valid := rfl
@[simp] theorem State.retireWork_family : s.retireWork.family = s.family := rfl
@[simp] theorem State.retireWork_cfg : s.retireWork.cfg = s.cfg := rfl
@[simp] theorem State.retireWork_mode : s.retireWork.mode = s.mode := rfl
@[simp] theorem State.retireWork_rk : s.retireWork.rk = s.rk := rfl
@[simp] theorem State.retireWork_chain : s.retireWork.chain = s.chain := rfl
@[simp] theorem State.retireWork_work : s.retireWork.work = freeWork s.fresh := rfl
@[simp] theorem State.retireWork_maxBlocks : s.retireWork.maxBlocks = s.maxBlocks := rfl
@[simp] theorem State.retireWork_pending : s.retireWork.pending = s.pending := rfl
@[simp] theorem State.retireWork_responses : s.retireWork.responses = s.responses := rfl
@[simp] theorem State.retireWork_fresh : s.retireWork.fresh = s.fresh + 1 := rfl

end RetireWork

section InstallContext
variable (s : State) (f : Family) (cfg : BitVec 4) (md : Mode) {n : Nat} (ks : List (Word n)) (b : Option Bytes)

@[simp] theorem State.installContext_valid : (s.installContext f cfg md ks b).valid = 1#1 := rfl
@[simp] theorem State.installContext_family : (s.installContext f cfg md ks b).family = familyCode f := rfl
@[simp] theorem State.installContext_cfg : (s.installContext f cfg md ks b).cfg = cfg := rfl
@[simp] theorem State.installContext_mode : (s.installContext f cfg md ks b).mode = modeCode md := rfl
@[simp] theorem State.installContext_rk : (s.installContext f cfg md ks b).rk = rkFile ks s.fresh := rfl
@[simp] theorem State.installContext_chain :
    (s.installContext f cfg md ks b).chain = chainFile (b.getD []) s.fresh := rfl
@[simp] theorem State.installContext_work : (s.installContext f cfg md ks b).work = s.work := rfl
@[simp] theorem State.installContext_maxBlocks : (s.installContext f cfg md ks b).maxBlocks = s.maxBlocks := rfl
@[simp] theorem State.installContext_pending : (s.installContext f cfg md ks b).pending = s.pending := rfl
@[simp] theorem State.installContext_responses : (s.installContext f cfg md ks b).responses = s.responses := rfl
@[simp] theorem State.installContext_fresh : (s.installContext f cfg md ks b).fresh = s.fresh := rfl

end InstallContext

section AdvanceChain
variable (s : State) (md : Mode) (b : Bytes)

@[simp] theorem State.advanceChain_valid : (s.advanceChain md b).valid = s.valid := by cases md <;> rfl
@[simp] theorem State.advanceChain_family : (s.advanceChain md b).family = s.family := by cases md <;> rfl
@[simp] theorem State.advanceChain_cfg : (s.advanceChain md b).cfg = s.cfg := by cases md <;> rfl
@[simp] theorem State.advanceChain_mode : (s.advanceChain md b).mode = s.mode := by cases md <;> rfl
@[simp] theorem State.advanceChain_rk : (s.advanceChain md b).rk = s.rk := by cases md <;> rfl
@[simp] theorem State.advanceChain_work : (s.advanceChain md b).work = s.work := by cases md <;> rfl
@[simp] theorem State.advanceChain_maxBlocks : (s.advanceChain md b).maxBlocks = s.maxBlocks := by
  cases md <;> rfl
@[simp] theorem State.advanceChain_pending : (s.advanceChain md b).pending = s.pending := by cases md <;> rfl
@[simp] theorem State.advanceChain_responses : (s.advanceChain md b).responses = s.responses := by
  cases md <;> rfl
@[simp] theorem State.advanceChain_fresh : (s.advanceChain md b).fresh = s.fresh := by cases md <;> rfl

/-- In ECB the chain stays as it was (10_state.md R26). -/
@[simp] theorem State.advanceChain_ecb_chain : (s.advanceChain .ecb b).chain = s.chain := rfl

/-- In every other mode the chain holds the new value. -/
theorem State.advanceChain_chain (h : md ≠ .ecb) : (s.advanceChain md b).chain = chainFile b s.fresh := by
  cases md <;> first | contradiction | rfl

end AdvanceChain

end Sys2Proof.Machine
end

