-- ==== Sys2Proof/Laws/Context.lean ====
section
/-! SUPPORT. What is read back from the context after it is written: the round-key file, the chain register, and the
guarded read of the whole (10_state.md R21 to R26, 42_key_schedule.md R150). -/

namespace Sys2Proof.Machine

/-! ### The lengths of the schedules -/

theorem simonExtend_length {n : Nat} (m zid : Nat) :
    ∀ (count : Nat) (k : List (Word n)), (simonExtend m zid count k).length = k.length + count
  | 0, _ => rfl
  | count + 1, k => by
    rw [simonExtend, simonExtend_length m zid count, List.length_append]
    simp only [List.length_singleton]
    omega

theorem speckExtend_length {n : Nat} (alpha beta : Nat) :
    ∀ (count i : Nat) (L k : List (Word n)),
      (speckExtend alpha beta count i L k).1.length = L.length + count ∧
        (speckExtend alpha beta count i L k).2.length = k.length + count
  | 0, _, _, _ => ⟨rfl, rfl⟩
  | count + 1, i, L, k => by
    rw [speckExtend]
    have h := speckExtend_length alpha beta count (i + 1)
      (L ++ [(speckRF alpha beta (L.getD i 0, k.getD i 0) (BitVec.ofNat n i)).1])
      (k ++ [(speckRF alpha beta (L.getD i 0, k.getD i 0) (BitVec.ofNat n i)).2])
    simp only [List.length_append, List.length_singleton] at h
    exact ⟨by omega, by omega⟩

/-- A configuration's schedule has exactly `T` subkeys (R140). -/
theorem keySchedule_length {f : Family} {cfg : BitVec 4} {c : Configuration} (h : resolve f cfg = some c)
    {kw : List (Word c.n)} (hk : kw.length = c.m) : (keySchedule c kw).length = c.T := by
  have hm := resolve_m_ge h
  have hT := resolve_m_lt_T h
  unfold keySchedule
  split
  · rw [ksSimon, simonExtend_length]; omega
  · rw [ksSpeck, (speckExtend_length _ _ _ _ _ _).2, List.length_take]; omega

/-! ### The round-key file -/

theorem rkFile_getElem {n : Nat} (ks : List (Word n)) (fresh i : Nat) (h : i < 72) :
    (rkFile ks fresh)[i] = (ks[i]?.map (BitVec.setWidth 64)).getD (Config.freeRoundKey fresh i) := by
  simp only [rkFile, Vector.getElem_mk, List.getElem_toArray, List.getElem_map, List.getElem_range]

theorem rkFile_toList {n : Nat} (ks : List (Word n)) (fresh : Nat) :
    (rkFile ks fresh).toList = (List.range 72).map (fun i =>
      (ks[i]?.map (BitVec.setWidth 64)).getD (Config.freeRoundKey fresh i)) := rfl

/-- The subkeys read back are the subkeys written. -/
theorem subkeysOf_rkFile (c : Configuration) (ks : List (Word c.n)) (fresh : Nat) (hT : ks.length = c.T)
    (h72 : c.T ≤ 72) (hn : c.n ≤ 64) : subkeysOf c (rkFile ks fresh) = ks := by
  refine List.ext_getElem ?_ fun i h₁ h₂ => ?_
  · simp [subkeysOf, rkFile_toList, hT, h72]
  · simp [subkeysOf, rkFile_toList, List.getElem?_eq_getElem h₂, BitVec.setWidth_setWidth_of_le _ hn]

/-! ### The chain register -/

theorem chainFile_toList (b : Bytes) (fresh : Nat) :
    (chainFile b fresh).toList =
      (List.range 16).map (fun k => b[k]?.getD (Config.freeChainByte fresh k)) := rfl

/-- The bytes read back are the bytes written. -/
theorem chainFile_take {b : Bytes} {fresh Bb : Nat} (hb : b.length = Bb) (h : Bb ≤ 16) :
    (chainFile b fresh).toList.take Bb = b := by
  refine List.ext_getElem ?_ fun i h₁ h₂ => ?_
  · simp [chainFile_toList, hb, h]
  · simp [chainFile_toList, List.getElem?_eq_getElem h₂]

/-! ### The guarded read -/

@[simp] theorem familyOf_familyCode (f : Family) : familyOf (familyCode f) = f := by cases f <;> rfl

@[simp] theorem modeOf_modeCode (md : Mode) : modeOf (modeCode md) = some md := by cases md <;> rfl

theorem modeCode_of_modeOf {b : BitVec 3} {md : Mode} (h : modeOf b = some md) : modeCode md = b := by
  revert h; revert md; revert b; decide

theorem familyCode_familyOf (b : BitVec 1) : familyCode (familyOf b) = b := by revert b; decide

/-- A context exists exactly when VALID is 1 and the selectors stand for something. -/
theorem context?_eq_some_iff {s : State} {x : Context} :
    s.context? = some x ↔ s.valid ≠ 0#1 ∧ ∃ c md, resolve (familyOf s.family) s.cfg = some c ∧
      modeOf s.mode = some md ∧
      x = { family := familyOf s.family, cfg := s.cfg, mode := md, conf := c, subkeys := subkeysOf c s.rk,
            chain := s.chain.toList.take c.Bb } := by
  unfold State.context?
  by_cases hv : s.valid = 0#1
  · simp [hv]
  · cases hr : resolve (familyOf s.family) s.cfg <;> cases hm : modeOf s.mode <;> simp [hv, eq_comm]

theorem context?_resolve {s : State} {x : Context} (h : s.context? = some x) :
    resolve x.family x.cfg = some x.conf := by
  obtain ⟨_, c, md, hr, _, rfl⟩ := context?_eq_some_iff.1 h
  exact hr

theorem context?_valid {s : State} {x : Context} (h : s.context? = some x) : s.valid ≠ 0#1 :=
  (context?_eq_some_iff.1 h).1

theorem context?_chain_length {s : State} {x : Context} (h : s.context? = some x) :
    x.chain.length = x.conf.Bb := by
  obtain ⟨_, c, md, hr, _, rfl⟩ := context?_eq_some_iff.1 h
  have := resolve_Bb_le hr
  simp [this]

/-! ### Blocks keep their size -/

theorem blockE_length {f : Family} {cfg : BitVec 4} {c : Configuration} (h : resolve f cfg = some c)
    (ks : List (Word c.n)) (b : Bytes) : (blockE c ks b).length = c.Bb := by
  rw [blockE, wordsToBlock_length, resolve_block h]

theorem blockD_length {f : Family} {cfg : BitVec 4} {c : Configuration} (h : resolve f cfg = some c)
    (ks : List (Word c.n)) (b : Bytes) : (blockD c ks b).length = c.Bb := by
  rw [blockD, wordsToBlock_length, resolve_block h]

@[simp] theorem incBe_length (s : Bytes) : (incBe s).length = s.length := by simp [incBe]

/-- Every step of the step table gives whole blocks from whole blocks. -/
theorem modeStep_keepsBlocks {Bb : Nat} {E D : Bytes → Bytes} (hE : ∀ b, (E b).length = Bb)
    (hD : ∀ b, (D b).length = Bb) (md : Mode) (dir : Direction) : keepsBlocks (modeStep md dir E D) Bb := by
  intro chain inp hc hi
  cases md <;> cases dir <;>
    simp [modeStep, ecbEnc, ecbDec, ctrEnc, ctrDec, cbcEnc, cbcDec, cfbEnc, cfbDec, ofbEnc, ofbDec, hE, hD, hc, hi]

end Sys2Proof.Machine
end

