-- ==== Sys2Proof/Laws/Commands.lean ====
section
/-! SUPPORT. What a command can do, said once: the meaning behind each constructor, the outcomes of INIT, ENCRYPT and
DECRYPT, and the outcomes of a step (45_context_commands.md R220 to R226). -/

namespace Sys2Proof.Machine

/-- Every INIT constructor runs INIT with the selectors its row names. -/
theorem exec_init {i : Instr} {f : Family} {cfg : BitVec 4} {md : Mode} {key : Bytes} {iv ctr : Option Bytes}
    (h : commandFields i = .init f cfg md key iv ctr) (s : State) :
    exec i s = initContext f cfg md key iv ctr s := by
  cases i <;> cases h <;> rfl

@[simp] theorem exec_encrypt (din : Bytes) (s : State) : exec (.encrypt din) s = cryptMessage .enc din s := rfl

@[simp] theorem exec_decrypt (din : Bytes) (s : State) : exec (.decrypt din) s = cryptMessage .dec din s := rfl

/-- The selectors of an INIT constructor always resolve. -/
theorem resolve_of_init {i : Instr} {f : Family} {cfg : BitVec 4} {md : Mode} {key : Bytes}
    {iv ctr : Option Bytes} (h : commandFields i = .init f cfg md key iv ctr) : ∃ c, resolve f cfg = some c := by
  cases i <;> cases h <;> exact ⟨_, rfl⟩

/-- What a constructor is: one of the 100 INITs, ENCRYPT or DECRYPT. -/
theorem instr_cases (i : Instr) :
    (∃ f cfg md key iv ctr, commandFields i = .init f cfg md key iv ctr) ∨ (∃ din, i = .encrypt din) ∨
      ∃ din, i = .decrypt din := by
  cases i
  case encrypt din => exact .inr (.inl ⟨din, rfl⟩)
  case decrypt din => exact .inr (.inr ⟨din, rfl⟩)
  all_goals exact .inl ⟨_, _, _, _, _, _, rfl⟩

/-! ### INIT -/

/-- The state a successful INIT leaves. -/
def initDone (f : Family) (cfg : BitVec 4) (md : Mode) (c : Configuration) (key : Bytes) (chain0 : Option Bytes)
    (s : State) : State :=
  ((s.installContext f cfg md (keySchedule c (keyWordsOf c key)) chain0).retireWork).respond .ok none

theorem initWork_eq {f : Family} {cfg : BitVec 4} {c : Configuration} (h : resolve f cfg = some c) {md : Mode}
    {key : Bytes} (hk : key.length = c.Kb) (chain0 : Option Bytes) (s : State) :
    initWork f cfg md c key chain0 s = .next (initDone f cfg md c key chain0 s) := by
  have := readWords_eq (n := c.n) (buf := key) c.m 0 (by rw [Nat.zero_add, resolve_key h, hk])
  simp only [Nat.zero_add] at this
  rw [initWork, this]
  rfl

/-- The outcomes of INIT: the first failing check is answered, and otherwise the context is installed. -/
theorem initContext_cases {f : Family} {cfg : BitVec 4} {c : Configuration} (h : resolve f cfg = some c)
    (md : Mode) (key : Bytes) (iv ctr : Option Bytes) (s : State) :
    (key.length ≠ c.Kb ∧ initContext f cfg md key iv ctr s = .next (s.raise .invalidKeyLength)) ∨
    (key.length = c.Kb ∧ initialChain md c.Bb iv ctr = .missing ∧
      initContext f cfg md key iv ctr s = .next (s.raise .missingChainValue)) ∨
    (key.length = c.Kb ∧ initialChain md c.Bb iv ctr = .notRequired ∧
      initContext f cfg md key iv ctr s = .next (initDone f cfg md c key none s)) ∨
    (∃ b, key.length = c.Kb ∧ initialChain md c.Bb iv ctr = .value b ∧
      initContext f cfg md key iv ctr s = .next (initDone f cfg md c key (some b) s)) := by
  simp only [initContext, h]
  by_cases hk : key.length = c.Kb
  · cases hc : initialChain md c.Bb iv ctr with
    | missing => exact .inr (.inl ⟨hk, rfl, by simp [hk]⟩)
    | notRequired => exact .inr (.inr (.inl ⟨hk, rfl, by simp [hk, initWork_eq h hk]⟩))
    | value b => exact .inr (.inr (.inr ⟨b, hk, rfl, by simp [hk, initWork_eq h hk]⟩))
  · exact .inl ⟨hk, by simp [hk]⟩

theorem requiredBlock_eq_value_iff {Bb : Nat} {o : Option Bytes} {b : Bytes} :
    requiredBlock Bb o = .value b ↔ o = some b ∧ b.length = Bb := by
  cases o with
  | none => simp [requiredBlock]
  | some v =>
    by_cases hv : v.length = Bb
    · simp only [requiredBlock, if_pos hv, ChainOperand.value.injEq, Option.some.injEq]
      exact ⟨fun e => ⟨e, e ▸ hv⟩, fun e => e.1⟩
    · simp only [requiredBlock, if_neg hv, Option.some.injEq]
      exact ⟨fun e => by simp at e, fun ⟨e, hb⟩ => absurd (e ▸ hb) hv⟩

/-- The initial chain has the block size. -/
theorem initialChain_length {md : Mode} {Bb : Nat} {iv ctr : Option Bytes} {b : Bytes}
    (h : initialChain md Bb iv ctr = .value b) : b.length = Bb := by
  cases md <;> simp only [initialChain] at h
  case ecb => simp at h
  all_goals exact (requiredBlock_eq_value_iff.1 h).2

/-- The context read back after a successful INIT. -/
theorem initDone_context? {f : Family} {cfg : BitVec 4} {c : Configuration} (h : resolve f cfg = some c)
    {md : Mode} {key : Bytes} (chain0 : Option Bytes) (s : State) :
    (initDone f cfg md c key chain0 s).context? =
      some { family := f, cfg := cfg, mode := md, conf := c, subkeys := keySchedule c (keyWordsOf c key)
             chain := (chainFile (chain0.getD []) s.fresh).toList.take c.Bb } := by
  refine context?_eq_some_iff.2 ⟨by simp [initDone], c, md, ?_, ?_, ?_⟩
  · simp [initDone, h]
  · simp [initDone]
  · simp only [initDone, State.respond_family, State.retireWork_family, State.installContext_family,
      familyOf_familyCode, State.respond_cfg, State.retireWork_cfg, State.installContext_cfg, State.respond_rk,
      State.retireWork_rk, State.installContext_rk, State.respond_chain, State.retireWork_chain,
      State.installContext_chain]
    rw [subkeysOf_rkFile c _ _ (keySchedule_length h (by simp [keyWordsOf])) (resolve_T_le h) (resolve_n_le h)]

/-! ### ENCRYPT and DECRYPT -/

theorem lengthInvalid_eq_false_iff {s : State} {Bb len : Nat} :
    lengthInvalid s.maxBlocks Bb len = false ↔ messageFits s Bb len := by
  unfold lengthInvalid messageFits tooManyBlocks
  cases s.maxBlocks <;> simp [Nat.pos_iff_ne_zero, and_assoc]

/-- The step of a context that a state holds keeps the block size. -/
theorem context_step_keepsBlocks {s : State} {x : Context} (h : s.context? = some x) (dir : Direction) :
    keepsBlocks (x.step dir) x.conf.Bb :=
  modeStep_keepsBlocks (blockE_length (context?_resolve h) _) (blockD_length (context?_resolve h) _) _ _

/-- The state a successful ENCRYPT or DECRYPT leaves. -/
def cryptDone (md : Mode) (chain dout : Bytes) (s : State) : State :=
  ((s.advanceChain md chain).retireWork).respond .ok (some dout)

/-- ENCRYPT and DECRYPT with a context and a message that fits: the blocks of the step, and the chain after
the last. -/
theorem cryptMessage_ok {s : State} {x : Context} {dir : Direction} {din : Bytes} (h : s.context? = some x)
    (hf : messageFits s x.conf.Bb din.length) :
    ∃ dout, cryptMessage dir din s = .next (cryptDone x.mode
        (chainBefore (x.step dir) x.conf.Bb din x.chain (din.length / x.conf.Bb)) dout s) ∧
      dout.length = din.length ∧
      ∀ j < din.length / x.conf.Bb, blockAt dout x.conf.Bb j = outBlock (x.step dir) x.conf.Bb din x.chain j := by
  obtain ⟨dout, hrun, hlen, hblk⟩ := modeRun_eq (N := din.length / x.conf.Bb) (context_step_keepsBlocks h dir)
    (context?_chain_length h) (resolve_Bb_pos (context?_resolve h))
    (by have := hf.2.1; rw [Nat.div_mul_cancel (Nat.dvd_of_mod_eq_zero this)])
  refine ⟨dout, ?_, hlen, hblk⟩
  simp only [cryptMessage, if_neg (context?_valid h), h, lengthInvalid_eq_false_iff.2 hf, Bool.false_eq_true,
    if_false, hrun, cryptDone]

/-- The outcomes of ENCRYPT and DECRYPT. -/
theorem cryptMessage_cases (dir : Direction) (din : Bytes) (s : State) :
    (s.valid = 0#1 ∧ cryptMessage dir din s = .next (s.raise .notInitialized)) ∨
    (s.valid ≠ 0#1 ∧ s.context? = none ∧ cryptMessage dir din s = .fault .contextHoldsNoValue) ∨
    (∃ x, s.context? = some x ∧ ¬ messageFits s x.conf.Bb din.length ∧
      cryptMessage dir din s = .next (s.raise .invalidLength)) ∨
    (∃ x chain dout, s.context? = some x ∧ messageFits s x.conf.Bb din.length ∧
      chain = chainBefore (x.step dir) x.conf.Bb din x.chain (din.length / x.conf.Bb) ∧
      dout.length = din.length ∧ cryptMessage dir din s = .next (cryptDone x.mode chain dout s)) := by
  by_cases hv : s.valid = 0#1
  · exact .inl ⟨hv, by simp [cryptMessage, hv]⟩
  · cases hx : s.context? with
    | none => exact .inr (.inl ⟨hv, rfl, by simp [cryptMessage, hv, hx]⟩)
    | some x =>
      by_cases hf : messageFits s x.conf.Bb din.length
      · obtain ⟨dout, hd, hl, _⟩ := cryptMessage_ok (dir := dir) hx hf
        exact .inr (.inr (.inr ⟨x, _, dout, rfl, hf, rfl, hl, hd⟩))
      · have : lengthInvalid s.maxBlocks x.conf.Bb din.length = true := by
          rw [← Bool.not_eq_false]; exact fun e => hf (lengthInvalid_eq_false_iff.1 e)
        exact .inr (.inr (.inl ⟨x, rfl, hf, by simp [cryptMessage, hv, hx, this]⟩))

/-! ### The step -/

/-- A run of `n + 1` steps whose first goes on is a run of `n` steps from there. -/
theorem run_succ (M : Host.Core) {s t : M.State} (h : M.step s = .next t) (n : Nat) :
    M.run (n + 1) s = M.run n t := by
  simp only [Host.Core.run, h]

/-- The outcomes of a step: idle, a rejected command word, or a command. -/
theorem step_cases (s : State) :
    (s.pending = [] ∧ step s = .next s) ∨
    (∃ t rest r, s.pending = t :: rest ∧ decode t = .rejected r ∧
      step s = .next (State.raise { s with pending := rest } (rejectStatus r))) ∨
    (∃ t rest i, s.pending = t :: rest ∧ decode t = .instr i ∧ step s = exec i { s with pending := rest }) := by
  unfold step issueNext runTransaction
  cases hp : s.pending with
  | nil => exact .inl ⟨rfl, rfl⟩
  | cons t rest =>
    cases hd : decode t with
    | instr i => exact .inr (.inr ⟨t, rest, i, rfl, hd, by simp [hd]⟩)
    | rejected r => exact .inr (.inl ⟨t, rest, r, rfl, hd, by simp [hd]⟩)

end Sys2Proof.Machine
end

