-- ==== Sys2Proof/Laws/Decode.lean ====
section
/-! SUPPORT. The fields of a command word as numbers, and what the rows of the decoder and the encoder say, once for all
hundred INIT commands (30_encoding.md R71 to R82). -/

namespace Sys2Proof

open Sys2Proof.Machine

/-- Each field is a slice of the word's number (R71). -/
theorem field_numbers (w : BitVec 16) :
    (opField w).toNat = w.toNat % 4 ∧ (familyField w).toNat = w.toNat / 4 % 2 ∧
      (cfgField w).toNat = w.toNat / 8 % 16 ∧ (modeField w).toNat = w.toNat / 128 % 8 ∧
      (ivpField w).toNat = w.toNat / 1024 % 2 ∧ (ctrpField w).toNat = w.toNat / 2048 % 2 ∧
      (reservedI w).toNat = w.toNat / 4096 ∧ (reservedX w).toNat = w.toNat / 4 := by
  have := w.isLt
  simp [opField, familyField, cfgField, modeField, ivpField, ctrpField, reservedI, reservedX,
    Nat.shiftRight_eq_div_pow]
  omega

/-- The sixteen values of the field CFG. -/
theorem cfg_values (c : BitVec 4) :
    c = 0#4 ∨ c = 1#4 ∨ c = 2#4 ∨ c = 3#4 ∨ c = 4#4 ∨ c = 5#4 ∨ c = 6#4 ∨ c = 7#4 ∨ c = 8#4 ∨ c = 9#4 ∨
      c = 10#4 ∨ c = 11#4 ∨ c = 12#4 ∨ c = 13#4 ∨ c = 14#4 ∨ c = 15#4 := by
  revert c; decide

/-- CFG 0 to 9 select a constructor that stands for exactly those fields, CFG 10 to 15 none (R74). -/
theorem initRow_cases (f : Family) (cfg : BitVec 4) (md : Mode) :
    (cfg.toNat < 10 ∧ ∃ mk, initRow f cfg md = some mk ∧
      ∀ key iv ctr, commandFields (mk key iv ctr) = .init f cfg md key iv ctr) ∨
    (10 ≤ cfg.toNat ∧ initRow f cfg md = none) := by
  rcases cfg_values cfg with rfl | rfl | rfl | rfl | rfl | rfl | rfl | rfl | rfl | rfl | rfl | rfl | rfl | rfl | rfl | rfl <;>
    first
    | exact .inr ⟨by decide, by cases f <;> cases md <;> rfl⟩
    | (refine .inl ⟨by decide, ?_⟩; cases f <;> cases md <;> exact ⟨_, rfl, fun _ _ _ => rfl⟩)

/-- MODE 0 to 4 stand for a mode, MODE 5 to 7 for none (R75). -/
theorem modeOf_cases (b : BitVec 3) :
    (b.toNat < 5 ∧ ∃ md, modeOf b = some md ∧ modeCode md = b) ∨ (5 ≤ b.toNat ∧ modeOf b = none) := by
  revert b; decide

/-- The fields read back from the word the encoder composes (R82). -/
theorem initWord_fields (family : BitVec 1) (cfg : BitVec 4) (mode : BitVec 3) (ivp ctrp : BitVec 1) :
    opField (initWord family cfg mode ivp ctrp) = 0#2 ∧ reservedI (initWord family cfg mode ivp ctrp) = 0#4 ∧
      familyField (initWord family cfg mode ivp ctrp) = family ∧ cfgField (initWord family cfg mode ivp ctrp) = cfg ∧
      modeField (initWord family cfg mode ivp ctrp) = mode ∧ ivpField (initWord family cfg mode ivp ctrp) = ivp ∧
      ctrpField (initWord family cfg mode ivp ctrp) = ctrp := by
  revert family cfg mode ivp ctrp; decide

/-- The number of the word the encoder composes (R82). -/
theorem initWord_toNat (family : BitVec 1) (cfg : BitVec 4) (mode : BitVec 3) (ivp ctrp : BitVec 1) :
    (initWord family cfg mode ivp ctrp).toNat =
      family.toNat * 4 + cfg.toNat * 8 + mode.toNat * 128 + ivp.toNat * 1024 + ctrp.toNat * 2048 := by
  revert family cfg mode ivp ctrp; decide

/-- A format I word without reserved bits is composed of its fields (R71, R82). -/
theorem initWord_of_fields (w : BitVec 16) (h : opField w = 0#2) (hr : reservedI w = 0#4) :
    initWord (familyField w) (cfgField w) (modeField w) (ivpField w) (ctrpField w) = w := by
  have low : ∀ j, j < 2 → w.getLsbD j = false := fun j hj => by
    have := congrArg (fun v => v.getLsbD j) h
    simpa [opField, hj] using this
  have high : ∀ j, 12 ≤ j → j < 16 → w.getLsbD j = false := fun j hj hj' => by
    have := congrArg (fun v => v.getLsbD (j - 12)) hr
    simpa [reservedI, show j - 12 < 4 by omega, show 12 + (j - 12) = j by omega] using this
  apply BitVec.eq_of_getLsbD_eq
  intro i hi
  by_cases h2 : i < 2
  · rw [low i h2]
    interval_cases i <;> simp [initWord]
  · by_cases h12 : 12 ≤ i
    · rw [high i h12 hi]
      interval_cases i <;> simp [initWord]
    · interval_cases i <;> simp [initWord, familyField, cfgField, modeField, ivpField, ctrpField] at *

/-- An operand is absent exactly when its presence bit is 0 (R76). -/
theorem presentWhen_eq_none_iff {p : BitVec 1} {b : Bytes} : presentWhen p b = none ↔ p = 0#1 := by
  have : p = 0#1 ∨ p = 1#1 := by revert p; decide
  rcases this with rfl | rfl <;> simp [presentWhen]

@[simp] theorem presenceBit_presentWhen (p : BitVec 1) (b : Bytes) : presenceBit (presentWhen p b) = p := by
  have : p = 0#1 ∨ p = 1#1 := by revert p; decide
  rcases this with rfl | rfl <;> simp [presenceBit, presentWhen]

/-- An optional operand comes back from its presence bit and its bytes. -/
@[simp] theorem presentWhen_presenceBit (b : Option Bytes) : presentWhen (presenceBit b) (b.getD []) = b := by
  cases b <;> simp [presenceBit, presentWhen]

/-- The outcomes of a format I decoding that gives a command: the fields of the word, and the buffers of the
transaction (R71, R76, R78). -/
theorem decodeInit_eq_instr {t : Transaction} {i : Instr} (h : decodeInit t = .instr i) :
    reservedI t.cmd = 0#4 ∧ ∃ md, modeOf (modeField t.cmd) = some md ∧ modeCode md = modeField t.cmd ∧
      commandFields i = .init (familyOf (familyField t.cmd)) (cfgField t.cmd) md t.key
        (presentWhen (ivpField t.cmd) t.iv) (presentWhen (ctrpField t.cmd) t.ctr) := by
  unfold decodeInit at h
  split at h
  · cases h
  rename_i hr
  rcases modeOf_cases (modeField t.cmd) with ⟨_, md, hm, hc⟩ | ⟨_, hm⟩ <;> rw [hm] at h <;> simp only at h
  · rcases initRow_cases (familyOf (familyField t.cmd)) (cfgField t.cmd) md with ⟨_, mk, e, hmk⟩ | ⟨_, e⟩ <;>
      rw [e] at h <;> simp only at h
    · injection h with h
      subst h
      exact ⟨not_not.1 hr, md, hm, hc, hmk ..⟩
    · cases h
  · cases h

/-- The outcomes of a format X decoding that gives a command (R71, R78). -/
theorem decodeX_eq_instr {w : BitVec 16} {i j : Instr} (h : decodeX w i = .instr j) : reservedX w = 0#14 ∧ j = i := by
  unfold decodeX at h
  split at h
  · cases h
  · rename_i hr
    injection h with h
    exact ⟨not_not.1 hr, h.symm⟩

/-- All that a transaction that decodes can be: an INIT, ENCRYPT or DECRYPT, by its OP (R72, R80). -/
theorem decode_eq_instr {t : Transaction} {i : Instr} (h : decode t = .instr i) :
    (opField t.cmd = 0#2 ∧ decodeInit t = .instr i) ∨
      (opField t.cmd = 1#2 ∧ reservedX t.cmd = 0#14 ∧ i = .encrypt t.din) ∨
      (opField t.cmd = 2#2 ∧ reservedX t.cmd = 0#14 ∧ i = .decrypt t.din) := by
  unfold decode at h
  split at h
  · exact .inl ⟨BitVec.eq_of_toNat_eq ‹_›, h⟩
  · exact .inr (.inl ⟨BitVec.eq_of_toNat_eq ‹_›, decodeX_eq_instr h⟩)
  · exact .inr (.inr ⟨BitVec.eq_of_toNat_eq ‹_›, decodeX_eq_instr h⟩)
  · cases h

end Sys2Proof
end

