-- ==== Sys2Proof/Laws/Words.lean ====
section
/-! SUPPORT. The rotations are the library's, so its lemmas about bits apply (40_word_arithmetic.md R91, R92). -/

namespace Sys2Proof.Machine

theorem rotl_eq_rotateLeft {n : Nat} (w : Word n) (r : Nat) : rotl w r = w.rotateLeft r := by
  unfold rotl BitVec.rotateLeft BitVec.rotateLeftAux
  by_cases h : r % n = 0
  · simp [h, BitVec.ushiftRight_eq_zero]
  · simp [h]

theorem rotr_eq_rotateRight {n : Nat} (w : Word n) (r : Nat) : rotr w r = w.rotateRight r := by
  unfold rotr BitVec.rotateRight BitVec.rotateRightAux
  by_cases h : r % n = 0
  · simp [h, BitVec.shiftLeft_eq_zero]
  · simp [h]

end Sys2Proof.Machine
end

