-- ==== Sys2Proof/Machine/Text.lean ====
section
/-! DEFINITION. The textual form of commands and responses (30_encoding.md R81). It is used by the spec's examples and is no
part of the machine (92_eei_decisions.md D30). -/

namespace Sys2Proof.Machine

/-- A hexadecimal digit, lower case as in the spec's examples (log 23). -/
def hexDigit (d : Nat) : Char := "0123456789abcdef".toList.getD d '0'

/-- A byte string as hexadecimal, from index 0 upward (00_scope.md R6). -/
def hexText (b : Bytes) : String :=
  String.ofList (b.flatMap (fun v => [hexDigit (v.toNat / 16), hexDigit (v.toNat % 16)]))

/-- `<family>` (R81). -/
def familyText : Family → String
  | .simon => "SIMON"
  | .speck => "SPECK"

/-- `<mode>` (R81). -/
def modeText : Mode → String
  | .ecb => "ECB"
  | .ctr => "CTR"
  | .cbc => "CBC"
  | .cfb => "CFB"
  | .ofb => "OFB"

/-- `<key>/<block>`, the key first (R81). -/
def pairText (cfg : BitVec 4) : String :=
  match pairOf cfg with
  | some (K, B) => toString K ++ "/" ++ toString B
  | none => "cfg=" ++ toString cfg.toNat

/-- An optional operand ` iv=<hex>` or ` ctr=<hex>`: present exactly when its presence bit is 1 (R81). -/
def optionText (name : String) : Option Bytes → String
  | some b => " " ++ name ++ "=" ++ hexText b
  | none => ""

/-- The text of a command (R81). -/
def commandText (i : Instr) : String :=
  match commandFields i with
  | .init f cfg md key iv ctr =>
    "INIT " ++ familyText f ++ " " ++ pairText cfg ++ " " ++ modeText md ++ " key=" ++ hexText key ++
      optionText "iv" iv ++ optionText "ctr" ctr
  | .encrypt din => "ENCRYPT " ++ hexText din
  | .decrypt din => "DECRYPT " ++ hexText din

/-- The name of a status code (R79); code 7 is never produced and has none. -/
def statusText (code : BitVec 3) : String :=
  match code.toNat with
  | 0 => "OK"
  | 1 => "UnsupportedConfiguration"
  | 2 => "InvalidKeyLength"
  | 3 => "MissingChainValue"
  | 4 => "InvalidLength"
  | 5 => "NotInitialized"
  | 6 => "IllegalCommand"
  | _ => ""

/-- The text of a response: `-> OK`, `-> OK <hex>` or `-> <ErrorName>` (R81). -/
def responseText (r : Response) : String :=
  match r.dout with
  | some b => "-> " ++ statusText r.status ++ " " ++ hexText b
  | none => "-> " ++ statusText r.status

end Sys2Proof.Machine
end

