-- ==== Sys2Proof/Tests/Slice0.lean ====
section
/-! SUPPORT. Tests. Expected values come from spec/95_test_vectors.md (named by its ids) or are worked by hand from the rule
named. After them, for each statement that has hypotheses, a witness that meets them all. -/

namespace Sys2Proof.Tests

open Sys2Proof Sys2Proof.Machine

-- One theorem after another: many kernel evaluations side by side would each hold a thread.
set_option Elab.async false

/-! ### Helpers -/

/-- `len` bytes of zero. -/
def zeros (len : Nat) : Bytes := List.replicate len 0#8

/-- The state a meaning leaves; `State.reset` where it does not go on. -/
def nextOf (o : Result) : State :=
  match o with
  | .next s => s
  | _ => State.reset

/-- The state a command leaves when it is the first after reset. -/
def first (i : Instr) : State := nextOf (exec i State.reset)

/-- The status code of the last response. -/
def statusOf (s : State) : Option Nat := s.responses.getLast?.map (fun r => r.status.toNat)

/-- The output of the last response. -/
def doutOf (s : State) : Option Bytes := s.responses.getLast?.bind (fun r => r.dout)

/-- The key of V-K0 and V-S0. -/
def key64 : Bytes := [0x00#8, 0x01#8, 0x08#8, 0x09#8, 0x10#8, 0x11#8, 0x18#8, 0x19#8]

/-- A chain operand of one 4-byte block, as in M2 to M5. -/
def chain4 : Bytes := [0x01#8, 0x02#8, 0x03#8, 0x04#8]

/-- A state with a context and an all-zero key schedule and chain. -/
def zeroContext (family : BitVec 1) (cfg : BitVec 4) (mode : BitVec 3) : State :=
  { State.reset with valid := 1#1, family := family, cfg := cfg, mode := mode }

/-- A transaction of a bare command word. -/
def word (w : BitVec 16) : Transaction := ⟨w, [], [], [], []⟩

/-! ### Well-formedness: one ill-formed command for each check -/

theorem test_wellFormed_init : wellFormed (.initSpeckK64B32Cbc (zeros 8) (some (zeros 4)) none) = true := by decide

theorem test_wellFormed_refuses_short_key : wellFormed (.initSimonK64B32Ecb (zeros 7) none none) = false := by decide

theorem test_wellFormed_refuses_long_key : wellFormed (.initSimonK256B128Ecb (zeros 33) none none) = false := by decide

theorem test_wellFormed_refuses_missing_counter :
    wellFormed (.initSpeckK64B32Ctr (zeros 8) (some (zeros 4)) none) = false := by decide

theorem test_wellFormed_refuses_missing_iv :
    wellFormed (.initSimonK72B48Ofb (zeros 9) none (some (zeros 6))) = false := by decide

theorem test_wellFormed_refuses_wrong_iv_length :
    wellFormed (.initSimonK72B48Cfb (zeros 9) (some (zeros 5)) none) = false := by decide

theorem test_initOk_refuses_unpublished_pair : initOk .speck 10#4 .ecb (zeros 8) none none = false := by decide

theorem test_wellFormed_message : wellFormed (.encrypt (zeros 6)) = true ∧ wellFormed (.decrypt (zeros 4)) = true := by
  decide

theorem test_wellFormed_refuses_empty_message : wellFormed (.encrypt []) = false := by decide

theorem test_wellFormed_refuses_partial_block : wellFormed (.decrypt (zeros 5)) = false := by decide

/-! ### Decoding: every word of 95_test_vectors.md section 9, the presence bit of the required operand set -/

theorem test_decode_simon_words_1 :
    [0x0000#16, 0x0880#16, 0x0500#16, 0x0580#16, 0x0600#16,
     0x0008#16, 0x0888#16, 0x0508#16, 0x0588#16, 0x0608#16,
     0x0010#16, 0x0890#16, 0x0510#16, 0x0590#16, 0x0610#16,
     0x0018#16, 0x0898#16, 0x0518#16, 0x0598#16, 0x0618#16,
     0x0020#16, 0x08a0#16, 0x0520#16, 0x05a0#16, 0x0620#16].map (fun w => decode (word w)) =
      ([.initSimonK64B32Ecb [] none none, .initSimonK64B32Ctr [] none (some []), .initSimonK64B32Cbc [] (some []) none, .initSimonK64B32Cfb [] (some []) none, .initSimonK64B32Ofb [] (some []) none,
        .initSimonK72B48Ecb [] none none, .initSimonK72B48Ctr [] none (some []), .initSimonK72B48Cbc [] (some []) none, .initSimonK72B48Cfb [] (some []) none, .initSimonK72B48Ofb [] (some []) none,
        .initSimonK96B48Ecb [] none none, .initSimonK96B48Ctr [] none (some []), .initSimonK96B48Cbc [] (some []) none, .initSimonK96B48Cfb [] (some []) none, .initSimonK96B48Ofb [] (some []) none,
        .initSimonK96B64Ecb [] none none, .initSimonK96B64Ctr [] none (some []), .initSimonK96B64Cbc [] (some []) none, .initSimonK96B64Cfb [] (some []) none, .initSimonK96B64Ofb [] (some []) none,
        .initSimonK128B64Ecb [] none none, .initSimonK128B64Ctr [] none (some []), .initSimonK128B64Cbc [] (some []) none, .initSimonK128B64Cfb [] (some []) none, .initSimonK128B64Ofb [] (some []) none] : List Instr).map .instr := by
  decide +kernel

theorem test_decode_simon_words_2 :
    [0x0028#16, 0x08a8#16, 0x0528#16, 0x05a8#16, 0x0628#16,
     0x0030#16, 0x08b0#16, 0x0530#16, 0x05b0#16, 0x0630#16,
     0x0038#16, 0x08b8#16, 0x0538#16, 0x05b8#16, 0x0638#16,
     0x0040#16, 0x08c0#16, 0x0540#16, 0x05c0#16, 0x0640#16,
     0x0048#16, 0x08c8#16, 0x0548#16, 0x05c8#16, 0x0648#16].map (fun w => decode (word w)) =
      ([.initSimonK96B96Ecb [] none none, .initSimonK96B96Ctr [] none (some []), .initSimonK96B96Cbc [] (some []) none, .initSimonK96B96Cfb [] (some []) none, .initSimonK96B96Ofb [] (some []) none,
        .initSimonK144B96Ecb [] none none, .initSimonK144B96Ctr [] none (some []), .initSimonK144B96Cbc [] (some []) none, .initSimonK144B96Cfb [] (some []) none, .initSimonK144B96Ofb [] (some []) none,
        .initSimonK128B128Ecb [] none none, .initSimonK128B128Ctr [] none (some []), .initSimonK128B128Cbc [] (some []) none, .initSimonK128B128Cfb [] (some []) none, .initSimonK128B128Ofb [] (some []) none,
        .initSimonK192B128Ecb [] none none, .initSimonK192B128Ctr [] none (some []), .initSimonK192B128Cbc [] (some []) none, .initSimonK192B128Cfb [] (some []) none, .initSimonK192B128Ofb [] (some []) none,
        .initSimonK256B128Ecb [] none none, .initSimonK256B128Ctr [] none (some []), .initSimonK256B128Cbc [] (some []) none, .initSimonK256B128Cfb [] (some []) none, .initSimonK256B128Ofb [] (some []) none] : List Instr).map .instr := by
  decide +kernel

theorem test_decode_speck_words_1 :
    [0x0004#16, 0x0884#16, 0x0504#16, 0x0584#16, 0x0604#16,
     0x000c#16, 0x088c#16, 0x050c#16, 0x058c#16, 0x060c#16,
     0x0014#16, 0x0894#16, 0x0514#16, 0x0594#16, 0x0614#16,
     0x001c#16, 0x089c#16, 0x051c#16, 0x059c#16, 0x061c#16,
     0x0024#16, 0x08a4#16, 0x0524#16, 0x05a4#16, 0x0624#16].map (fun w => decode (word w)) =
      ([.initSpeckK64B32Ecb [] none none, .initSpeckK64B32Ctr [] none (some []), .initSpeckK64B32Cbc [] (some []) none, .initSpeckK64B32Cfb [] (some []) none, .initSpeckK64B32Ofb [] (some []) none,
        .initSpeckK72B48Ecb [] none none, .initSpeckK72B48Ctr [] none (some []), .initSpeckK72B48Cbc [] (some []) none, .initSpeckK72B48Cfb [] (some []) none, .initSpeckK72B48Ofb [] (some []) none,
        .initSpeckK96B48Ecb [] none none, .initSpeckK96B48Ctr [] none (some []), .initSpeckK96B48Cbc [] (some []) none, .initSpeckK96B48Cfb [] (some []) none, .initSpeckK96B48Ofb [] (some []) none,
        .initSpeckK96B64Ecb [] none none, .initSpeckK96B64Ctr [] none (some []), .initSpeckK96B64Cbc [] (some []) none, .initSpeckK96B64Cfb [] (some []) none, .initSpeckK96B64Ofb [] (some []) none,
        .initSpeckK128B64Ecb [] none none, .initSpeckK128B64Ctr [] none (some []), .initSpeckK128B64Cbc [] (some []) none, .initSpeckK128B64Cfb [] (some []) none, .initSpeckK128B64Ofb [] (some []) none] : List Instr).map .instr := by
  decide +kernel

theorem test_decode_speck_words_2 :
    [0x002c#16, 0x08ac#16, 0x052c#16, 0x05ac#16, 0x062c#16,
     0x0034#16, 0x08b4#16, 0x0534#16, 0x05b4#16, 0x0634#16,
     0x003c#16, 0x08bc#16, 0x053c#16, 0x05bc#16, 0x063c#16,
     0x0044#16, 0x08c4#16, 0x0544#16, 0x05c4#16, 0x0644#16,
     0x004c#16, 0x08cc#16, 0x054c#16, 0x05cc#16, 0x064c#16].map (fun w => decode (word w)) =
      ([.initSpeckK96B96Ecb [] none none, .initSpeckK96B96Ctr [] none (some []), .initSpeckK96B96Cbc [] (some []) none, .initSpeckK96B96Cfb [] (some []) none, .initSpeckK96B96Ofb [] (some []) none,
        .initSpeckK144B96Ecb [] none none, .initSpeckK144B96Ctr [] none (some []), .initSpeckK144B96Cbc [] (some []) none, .initSpeckK144B96Cfb [] (some []) none, .initSpeckK144B96Ofb [] (some []) none,
        .initSpeckK128B128Ecb [] none none, .initSpeckK128B128Ctr [] none (some []), .initSpeckK128B128Cbc [] (some []) none, .initSpeckK128B128Cfb [] (some []) none, .initSpeckK128B128Ofb [] (some []) none,
        .initSpeckK192B128Ecb [] none none, .initSpeckK192B128Ctr [] none (some []), .initSpeckK192B128Cbc [] (some []) none, .initSpeckK192B128Cfb [] (some []) none, .initSpeckK192B128Ofb [] (some []) none,
        .initSpeckK256B128Ecb [] none none, .initSpeckK256B128Ctr [] none (some []), .initSpeckK256B128Cbc [] (some []) none, .initSpeckK256B128Cfb [] (some []) none, .initSpeckK256B128Ofb [] (some []) none] : List Instr).map .instr := by
  decide +kernel

/-- 0x0001 is ENCRYPT and 0x0002 DECRYPT, with the buffer DIN. -/
theorem test_decode_format_x :
    decode ⟨0x0001#16, [], [], [], zeros 4⟩ = .instr (.encrypt (zeros 4)) ∧
      decode ⟨0x0002#16, [], [], [], zeros 4⟩ = .instr (.decrypt (zeros 4)) := by
  decide +kernel

/-- 0x0c84: INIT Speck 64/32 CTR with both presence bits set. -/
theorem test_decode_both_presence_bits :
    decode ⟨0x0c84#16, key64, [0xaa#8], chain4, [0xbb#8]⟩ =
      .instr (.initSpeckK64B32Ctr key64 (some [0xaa#8]) (some chain4)) := by
  decide +kernel

/-- F14 to F17: reserved OP, MODE 5 and reserved bits. -/
theorem test_decode_illegal :
    [0x0003#16, 0x0280#16, 0x1000#16, 0x0005#16, 0x8002#16, 0x0380#16].map (fun w => decode (word w)) =
      List.replicate 6 (.rejected .illegalCommand) := by
  decide +kernel

/-- F3, F4: CFG 10 and 15; with a reserved MODE as well, IllegalCommand comes first (R247). -/
theorem test_decode_unsupported :
    [0x0050#16, 0x007c#16, 0x02d0#16].map (fun w => decode (word w)) =
      [.rejected .unsupportedConfiguration, .rejected .unsupportedConfiguration, .rejected .illegalCommand] := by
  decide +kernel

/-- The examples of R82. -/
theorem test_encode_examples :
    (encodeInitCall .speck 128 128 .ecb (zeros 16) none none 10#4).cmd = 0x003c#16 ∧
      (encodeInitCall .simon 64 32 .cbc (zeros 8) (some (zeros 4)) none 10#4).cmd = 0x0500#16 ∧
      (encodeInitCall .speck 80 64 .ecb (zeros 10) none none 15#4).cmd = 0x007c#16 := by
  decide +kernel

/-! ### The published vectors V-S0 to V-S9 and V-K0 to V-K9, each in both directions -/

/-- INIT, then ENCRYPT of `p` gives `c` and DECRYPT of `c` gives `p`. -/
def vector (i : Instr) (p c : Bytes) : Bool :=
  doutOf (nextOf (exec (.encrypt p) (first i))) == some c && doutOf (nextOf (exec (.decrypt c) (first i))) == some p

theorem test_vector_simon_64_32 :
    vector (.initSimonK64B32Ecb (natToBe 8 0x0001080910111819) none none)
      (natToBe 4 0x77686565) (natToBe 4 0xbbe99bc6) = true := by
  decide +kernel

theorem test_vector_simon_72_48 :
    vector (.initSimonK72B48Ecb (natToBe 9 0x00010208090a101112) none none)
      (natToBe 6 0x6c696e672061) (natToBe 6 0xac2c29ace5da) = true := by
  decide +kernel

theorem test_vector_simon_96_48 :
    vector (.initSimonK96B48Ecb (natToBe 12 0x00010208090a10111218191a) none none)
      (natToBe 6 0x6e6420636972) (natToBe 6 0x56f1aca5066e) = true := by
  decide +kernel

theorem test_vector_simon_96_64 :
    vector (.initSimonK96B64Ecb (natToBe 12 0x0001020308090a0b10111213) none none)
      (natToBe 8 0x636c696e6720726f) (natToBe 8 0xc88f1a117fe2a25c) = true := by
  decide +kernel

theorem test_vector_simon_128_64 :
    vector (.initSimonK128B64Ecb (natToBe 16 0x0001020308090a0b1011121318191a1b) none none)
      (natToBe 8 0x756e64206c696b65) (natToBe 8 0x7aa0dfb920fcc844) = true := by
  decide +kernel

theorem test_vector_simon_96_96 :
    vector (.initSimonK96B96Ecb (natToBe 12 0x00010203040508090a0b0c0d) none none)
      (natToBe 12 0x207468652070696c6c617220) (natToBe 12 0x82f08f3d0669b462a4072860) = true := by
  decide +kernel

theorem test_vector_simon_144_96 :
    vector (.initSimonK144B96Ecb (natToBe 18 0x00010203040508090a0b0c0d101112131415) none none)
      (natToBe 12 0x6f6620647573742074686174) (natToBe 12 0xe91adbc5593f1e456c1cadec) = true := by
  decide +kernel

theorem test_vector_simon_128_128 :
    vector (.initSimonK128B128Ecb (natToBe 16 0x000102030405060708090a0b0c0d0e0f) none none)
      (natToBe 16 0x2074726176656c6c6572732064657363) (natToBe 16 0xbc0b4ef82a83aa653ffe541e1e1b6849) = true := by
  decide +kernel

theorem test_vector_simon_192_128 :
    vector (.initSimonK192B128Ecb (natToBe 24 0x000102030405060708090a0b0c0d0e0f1011121314151617) none none)
      (natToBe 16 0x72696265207768656e20746865726520) (natToBe 16 0x5bb897256e8d9c6c4f0ddcfcef61acc4) = true := by
  decide +kernel

theorem test_vector_simon_256_128 :
    vector (.initSimonK256B128Ecb (natToBe 32 0x000102030405060708090a0b0c0d0e0f101112131415161718191a1b1c1d1e1f) none none)
      (natToBe 16 0x697320612073696d6f6f6d20696e2074) (natToBe 16 0x68b8e7ef872af73ba0a3c8af79552b8d) = true := by
  decide +kernel

theorem test_vector_speck_64_32 :
    vector (.initSpeckK64B32Ecb (natToBe 8 0x0001080910111819) none none)
      (natToBe 4 0x4c697465) (natToBe 4 0xf24268a8) = true := by
  decide +kernel

theorem test_vector_speck_72_48 :
    vector (.initSpeckK72B48Ecb (natToBe 9 0x00010208090a101112) none none)
      (natToBe 6 0x72616c6c7920) (natToBe 6 0xdc5a38a549c0) = true := by
  decide +kernel

theorem test_vector_speck_96_48 :
    vector (.initSpeckK96B48Ecb (natToBe 12 0x00010208090a10111218191a) none none)
      (natToBe 6 0x74686973206d) (natToBe 6 0x5d44b6105e73) = true := by
  decide +kernel

theorem test_vector_speck_96_64 :
    vector (.initSpeckK96B64Ecb (natToBe 12 0x0001020308090a0b10111213) none none)
      (natToBe 8 0x65616e7320466174) (natToBe 8 0x6c947541ec52799f) = true := by
  decide +kernel

theorem test_vector_speck_128_64 :
    vector (.initSpeckK128B64Ecb (natToBe 16 0x0001020308090a0b1011121318191a1b) none none)
      (natToBe 8 0x2d4375747465723b) (natToBe 8 0x8b024e4548a56f8c) = true := by
  decide +kernel

theorem test_vector_speck_96_96 :
    vector (.initSpeckK96B96Ecb (natToBe 12 0x00010203040508090a0b0c0d) none none)
      (natToBe 12 0x2075736167652c20686f7765) (natToBe 12 0xaa798fdebd627871ab094d9e) = true := by
  decide +kernel

theorem test_vector_speck_144_96 :
    vector (.initSpeckK144B96Ecb (natToBe 18 0x00010203040508090a0b0c0d101112131415) none none)
      (natToBe 12 0x7665722c20696e2074696d65) (natToBe 12 0xe62e2540e47a8a227210f32b) = true := by
  decide +kernel

theorem test_vector_speck_128_128 :
    vector (.initSpeckK128B128Ecb (natToBe 16 0x000102030405060708090a0b0c0d0e0f) none none)
      (natToBe 16 0x206d616465206974206571756976616c) (natToBe 16 0x180d575cdffe60786532787951985da6) = true := by
  decide +kernel

theorem test_vector_speck_192_128 :
    vector (.initSpeckK192B128Ecb (natToBe 24 0x000102030405060708090a0b0c0d0e0f1011121314151617) none none)
      (natToBe 16 0x656e7420746f20436869656620486172) (natToBe 16 0x86183ce05d18bcf9665513133acfe41b) = true := by
  decide +kernel

theorem test_vector_speck_256_128 :
    vector (.initSpeckK256B128Ecb (natToBe 32 0x000102030405060708090a0b0c0d0e0f101112131415161718191a1b1c1d1e1f) none none)
      (natToBe 16 0x706f6f6e65722e20496e2074686f7365) (natToBe 16 0x438f189c8db4ee4e3ef5c00504010941) = true := by
  decide +kernel

/-! ### The modes: M2 to M5, the second command after the first, and the chain left -/

/-- INIT of SPECK 64/32, ENCRYPT of three blocks, then of one: the two outputs, and `CHAIN` after each. -/
def stream (i : Instr) : Option Bytes × Option Bytes × Bytes × Bytes :=
  let s := nextOf (exec (.encrypt (natToBe 12 0x4c69746500000000ffffffff)) (first i))
  let t := nextOf (exec (.encrypt (natToBe 4 0x4c697465)) s)
  (doutOf s, doutOf t, chainValue s 4, chainValue t 4)

theorem test_stream_M2_ctr : stream (.initSpeckK64B32Ctr key64 none (some chain4)) =
    (some (natToBe 12 0x315f8890c61b748b7f430b82), some (natToBe 4 0xea2b31a0), natToBe 4 0x01020307, natToBe 4 0x01020308) := by
  decide +kernel

theorem test_stream_M3_cbc : stream (.initSpeckK64B32Cbc key64 (some chain4) none) =
    (some (natToBe 12 0xc50ee26441eeb6589dcde93e), some (natToBe 4 0x260c4131), natToBe 4 0x9dcde93e, natToBe 4 0x260c4131) := by
  decide +kernel

theorem test_stream_M4_cfb : stream (.initSpeckK64B32Cfb key64 (some chain4) none) =
    (some (natToBe 12 0x315f8890ab7b429a7d70b76a), some (natToBe 4 0x6b758df3), natToBe 4 0x7d70b76a, natToBe 4 0x6b758df3) := by
  decide +kernel

theorem test_stream_M5_ofb : stream (.initSpeckK64B32Ofb key64 (some chain4) none) =
    (some (natToBe 12 0x315f8890f499f73054a7c12f), some (natToBe 4 0xeb9a3444), natToBe 4 0xab583ed0, natToBe 4 0xa7f34021) := by
  decide +kernel

/-- M8: SIMON 72/48 CBC, 24-bit words. -/
theorem test_M8_simon_cbc :
    doutOf (nextOf (exec (.encrypt (natToBe 12 0x6c696e672061000102030405))
      (first (.initSimonK72B48Cbc (natToBe 9 0x00010208090a101112) (some (natToBe 6 0xa0a1a2a3a4a5)) none)))) =
      some (natToBe 12 0xea78d94b0ad0d75210ac53af) := by
  decide +kernel

/-- M11a: a counter of all ff bytes wraps to zero. -/
theorem test_M11a_counter_wraps :
    let s := nextOf (exec (.encrypt (zeros 8)) (first (.initSpeckK64B32Ctr key64 none (some (natToBe 4 0xffffffff)))))
    doutOf s = some (natToBe 8 0x7be9df99d8f51fc5) ∧ chainValue s 4 = natToBe 4 0x00000001 := by
  decide +kernel

/-- M13: DECRYPT continues from the chain an ENCRYPT left, so it does not invert it. -/
theorem test_M13_decrypt_continues :
    let s := nextOf (exec (.encrypt (natToBe 4 0x4c697465)) (first (.initSpeckK64B32Cbc key64 (some chain4) none)))
    doutOf (nextOf (exec (.decrypt (natToBe 4 0xc50ee264)) s)) = some (natToBe 4 0x88659505) := by
  decide +kernel

/-! ### The key schedule and the operations under it -/

/-- V-KS2, and the round keys the example of R220 names. -/
theorem test_speck_schedule :
    (first (.initSpeckK64B32Cbc key64 (some chain4) none)).rk.toList.take 22 =
      [0x0100#64, 0x1512#64, 0x617d#64, 0x1458#64, 0x6919#64, 0x77e2#64, 0x0c89#64, 0xccdb#64, 0xefea#64, 0x4e33#64,
       0x76f4#64, 0x5976#64, 0xee8b#64, 0xdb04#64, 0x4617#64, 0xf37e#64, 0x87b4#64, 0x8eca#64, 0xed9b#64, 0x3a52#64,
       0x8229#64, 0xed64#64] := by
  decide +kernel

/-- V-KS1, the first and the last eight. -/
theorem test_simon_schedule :
    (first (.initSimonK64B32Ecb key64 none none)).rk.toList.take 8 =
        [0x0100#64, 0x0908#64, 0x1110#64, 0x1918#64, 0x71c3#64, 0xb649#64, 0x56d4#64, 0xe070#64] ∧
      ((first (.initSimonK64B32Ecb key64 none none)).rk.toList.take 32).drop 24 =
        [0x8609#64, 0x9f8e#64, 0xd8bf#64, 0x09ac#64, 0xe812#64, 0x2710#64, 0x2caa#64, 0x8d14#64] := by
  decide +kernel

/-- 95_test_vectors.md section 3, n = 24. -/
theorem test_word_operations :
    rotl 0xabcdef#24 8 = 0xcdefab#24 ∧ rotr 0xabcdef#24 3 = 0xf579bd#24 ∧ rotl 0xabcdef#24 25 = 0x579bdf#24 ∧
      addW 0xffffff#24 1#24 = 0#24 ∧ subW 0x543210#24 0xabcdef#24 = 0xa86421#24 := by
  decide +kernel

/-- 95_test_vectors.md section 6.1, n = 48 and n = 16. -/
theorem test_rounds :
    simonRF (0x456789abcdef#48, 0xba9876543210#48) 0x2d3c4b5a6978#48 = (0x80b318e4e791#48, 0x456789abcdef#48) ∧
      speckRF 7 2 (0xcdef#16, 0x3210#16) 0x6978#16 = (0x78d3#16, 0xb093#16) ∧
      speckRI 7 2 (0x78d3#16, 0xb093#16) 0x6978#16 = (0xcdef#16, 0x3210#16) := by
  decide +kernel

/-- The examples of R52, R53 and R202. -/
theorem test_byte_order :
    bytesToWord 24 [0x00#8, 0x01#8, 0x02#8] = 0x020100#24 ∧
      blockToWords 16 [0x4c#8, 0x69#8, 0x74#8, 0x65#8] = (0x6574#16, 0x694c#16) ∧
      incBe [0x00#8, 0x00#8, 0x00#8, 0xff#8] = [0x00#8, 0x00#8, 0x01#8, 0x00#8] := by
  decide +kernel

/-! ### Errors: F1, F5, F7, F8, F9, F10, F11, F13, and the text of a command and a response -/

theorem test_error_statuses :
    [first (.encrypt (zeros 4)), first (.initSimonK64B32Ecb (zeros 7) none none),
      first (.initSimonK64B32Cbc key64 none none), first (.initSimonK64B32Ctr key64 (some chain4) none),
      first (.initSimonK64B32Cbc key64 (some (zeros 3)) none)].map statusOf =
      [some 5, some 2, some 3, some 3, some 3] := by
  decide +kernel

theorem test_length_statuses :
    [zeros 0, zeros 5, zeros 4].map
        (fun d => statusOf (nextOf (exec (.encrypt d) (first (.initSpeckK64B32Ofb key64 (some chain4) none))))) =
      [some 4, some 4, some 0] := by
  decide +kernel

/-- MAX_BLOCKS = 1: one block is accepted, two are not (R221). -/
theorem test_max_blocks :
    [zeros 4, zeros 8].map (fun d =>
        statusOf (nextOf (exec (.encrypt d) { zeroContext 1#1 0#4 0#3 with maxBlocks := some 1 }))) =
      [some 0, some 4] := by
  decide +kernel

/-- The example of R220, and a response of R222 (R81). -/
theorem test_text :
    commandText (.initSpeckK64B32Cbc key64 (some chain4) none) =
        "INIT SPECK 64/32 CBC key=0001080910111819 iv=01020304" ∧
      responseText ⟨0#3, some chain4⟩ = "-> OK 01020304" ∧ responseText ⟨4#3, none⟩ = "-> InvalidLength" := by
  decide +kernel

/-- The row INIT.SPECK.K64B32.CBC of the opcode table, and the step that runs it after reset. -/
theorem test_table_word :
    decodeTableWord 16 0x0504 = some (.initSpeckK64B32Cbc (zeros 8) (some (zeros 4)) none) ∧
      statusOf (nextOf (step (State.reset.withFetchWord 16 0x0504))) = some 0 := by
  decide +kernel

/-! ### Witnesses: for each statement with hypotheses, values that meet them all -/

/-- A legal state with a SPECK 64/32 CBC context, with two commands to be issued and a bound. -/
def busy : State :=
  { zeroContext 1#1 0#4 2#3 with
    pending := [⟨0x0001#16, [], [], [], zeros 8⟩, ⟨0x0002#16, [], [], [], zeros 12⟩], maxBlocks := some 2 }

theorem busy_legal : legal busy := by
  refine ⟨fun _ => ⟨⟨64, 32, 16, 4, 22, 4, 8, .speck 7 2⟩, .cbc, by decide, by decide, by decide +kernel⟩, ?_, ?_⟩
  · intro r hr
    simp [busy, zeroContext, State.reset] at hr
  · intro most hm
    simp only [busy, Option.some.injEq] at hm
    omega

theorem witness_RunStartIsLegal : ∀ most, some 1 = some most → 0 < most := by
  intro most h
  simp only [Option.some.injEq] at h
  omega

theorem witness_EveryStepKeepsLegal : legal busy ∧ ∃ t, step busy = .next t := ⟨busy_legal, _, rfl⟩

theorem witness_LegalStateStepsOn : legal busy := busy_legal

theorem witness_IssuedCommandsAllComplete : legal busy ∧ busy.pending.length = 2 := ⟨busy_legal, rfl⟩

theorem witness_StepRunsDecodedCommand :
    busy.pending = ⟨0x0001#16, [], [], [], zeros 8⟩ :: [⟨0x0002#16, [], [], [], zeros 12⟩] ∧
      decode ⟨0x0001#16, [], [], [], zeros 8⟩ = .instr (.encrypt (zeros 8)) := by
  decide +kernel

theorem witness_IdleStepChangesNothing : (zeroContext 1#1 0#4 2#3).pending = [] := rfl

theorem witness_EncodeOfDecodeGivesWord : decode (word 0x0c84#16) = .instr (.initSpeckK64B32Ctr [] (some []) (some [])) := by
  decide +kernel

/-- One word for each clause of R246, at the first and the last reserved value. -/
theorem witness_ReservedWordRespondsIllegalCommand :
    [0x0003#16, 0xffff#16, 0x1000#16, 0x8000#16, 0x0280#16, 0x0380#16, 0x0005#16, 0xfffe#16].all (fun w =>
      decide (w.toNat % 4 = 3 ∨ (w.toNat % 4 = 0 ∧ (w.toNat / 4096 ≠ 0 ∨ 5 ≤ w.toNat / 128 % 8)) ∨
        ((w.toNat % 4 = 1 ∨ w.toNat % 4 = 2) ∧ w.toNat / 4 ≠ 0))) = true ∧
      { busy with pending := [word 0x0280#16] }.pending = word 0x0280#16 :: [] := by
  decide +kernel

/-- CFG 10 and CFG 15, with MODE 0 and MODE 4; and a command that goes on. -/
theorem witness_UnpublishedPairRespondsUnsupported :
    [0x0050#16, 0x027c#16].all (fun w =>
      decide (w.toNat % 4 = 0 ∧ w.toNat / 4096 = 0 ∧ w.toNat / 128 % 8 < 5 ∧ 10 ≤ w.toNat / 8 % 16)) = true ∧
      { busy with pending := [word 0x0050#16] }.pending = word 0x0050#16 :: [] ∧
      ∃ t, exec (.encrypt (zeros 3)) State.reset = .next t :=
  ⟨by decide +kernel, rfl, _, rfl⟩

/-- One byte too few and one too many, in the smallest and the largest configuration. -/
theorem witness_WrongKeyLengthRespondsInvalidKeyLength :
    commandFields (.initSimonK64B32Ecb (zeros 7) none none) = .init .simon 0#4 .ecb (zeros 7) none none ∧
      resolve .simon 0#4 = some ⟨64, 32, 16, 4, 32, 4, 8, .simon 0⟩ ∧ (zeros 7).length ≠ 8 ∧
      commandFields (.initSpeckK256B128Ofb (zeros 33) none none) = .init .speck 9#4 .ofb (zeros 33) none none ∧
      resolve .speck 9#4 = some ⟨256, 128, 64, 4, 34, 16, 32, .speck 8 3⟩ ∧ (zeros 33).length ≠ 32 := by
  decide +kernel

/-- The first clause with a counter one byte short, the second with no IV but a counter, the third with neither. -/
theorem witness_MissingChainOperandRespondsMissingChainValue :
    (commandFields (.initSimonK64B32Ctr (zeros 8) none (some (zeros 3))) =
        .init .simon 0#4 .ctr (zeros 8) none (some (zeros 3)) ∧
      commandFields (.initSimonK64B32Ofb (zeros 8) none (some (zeros 4))) =
        .init .simon 0#4 .ofb (zeros 8) none (some (zeros 4)) ∧
      commandFields (.initSimonK64B32Ecb (zeros 8) none none) = .init .simon 0#4 .ecb (zeros 8) none none ∧
      resolve .simon 0#4 = some ⟨64, 32, 16, 4, 32, 4, 8, .simon 0⟩ ∧ (zeros 8).length = 8) ∧
    (∀ v, some (zeros 3) = some v → v.length ≠ 4) ∧ (∀ v, (none : Option Bytes) = some v → v.length ≠ 4) ∧
      ∃ t, exec (.initSimonK64B32Ecb (zeros 8) none none) State.reset = .next t := by
  refine ⟨by decide +kernel, ?_, ?_, _, rfl⟩
  · intro v h
    simp only [Option.some.injEq] at h
    subst h
    decide
  · intro v h
    cases h

theorem witness_CryptWithoutContextRespondsNotInitialized : State.reset.valid = 0#1 := rfl

/-- The context of `busy`, whose block has 4 bytes. -/
def busyContext : Context :=
  { family := .speck, cfg := 0#4, mode := .cbc, conf := ⟨64, 32, 16, 4, 22, 4, 8, .speck 7 2⟩
    subkeys := List.replicate 22 0#16, chain := zeros 4 }

theorem busy_context : busy.context? = some busyContext := by decide +kernel

/-- Each of the three clauses: no bytes, one byte more than a block, one block more than the bound. -/
theorem witness_BadLengthRespondsInvalidLength :
    busy.context? = some busyContext ∧ (zeros 0).length = 0 ∧ (zeros 5).length % busyContext.conf.Bb ≠ 0 ∧
      ∃ most, busy.maxBlocks = some most ∧ most < (zeros 12).length / busyContext.conf.Bb :=
  ⟨busy_context, by decide, by decide, 2, by decide, by decide⟩

theorem witness_ErrorChangesNothingElse :
    busy.pending = ⟨0x0001#16, [], [], [], zeros 8⟩ :: [⟨0x0002#16, [], [], [], zeros 12⟩] ∧
      ∃ t, step busy = .next t :=
  ⟨rfl, _, rfl⟩

theorem witness_EveryCommandRespondsExpectedStatus :
    legal busy ∧ busy.pending = ⟨0x0001#16, [], [], [], zeros 8⟩ :: [⟨0x0002#16, [], [], [], zeros 12⟩] ∧
      ∃ t, step busy = .next t :=
  ⟨busy_legal, rfl, _, rfl⟩

/-- The first and the last configuration, one in each family, with surplus operands in one. -/
theorem witness_EcbInitCompletes :
    commandFields (.initSimonK64B32Ecb (zeros 8) none none) = .init .simon 0#4 .ecb (zeros 8) none none ∧
      resolve .simon 0#4 = some ⟨64, 32, 16, 4, 32, 4, 8, .simon 0⟩ ∧ (zeros 8).length = 8 ∧
      commandFields (.initSpeckK256B128Ecb (zeros 32) (some []) (some [])) =
        .init .speck 9#4 .ecb (zeros 32) (some []) (some []) ∧
      resolve .speck 9#4 = some ⟨256, 128, 64, 4, 34, 16, 32, .speck 8 3⟩ ∧ (zeros 32).length = 32 := by
  decide +kernel

theorem witness_CtrInitCompletes :
    commandFields (.initSpeckK96B96Ctr (zeros 12) none (some (zeros 12))) =
        .init .speck 5#4 .ctr (zeros 12) none (some (zeros 12)) ∧
      resolve .speck 5#4 = some ⟨96, 96, 48, 2, 28, 12, 12, .speck 8 3⟩ ∧ (zeros 12).length = 12 := by
  decide +kernel

theorem witness_IvModeInitCompletes :
    commandFields (.initSimonK72B48Cbc (zeros 9) (some (zeros 6)) none) =
        .init .simon 1#4 .cbc (zeros 9) (some (zeros 6)) none ∧
      commandFields (.initSimonK72B48Ofb (zeros 9) (some (zeros 6)) none) =
        .init .simon 1#4 .ofb (zeros 9) (some (zeros 6)) none ∧
      resolve .simon 1#4 = some ⟨72, 48, 24, 3, 36, 6, 9, .simon 0⟩ ∧ (zeros 9).length = 9 ∧ (zeros 6).length = 6 := by
  decide +kernel

/-- A well-formed INIT, and one that is not. -/
theorem witness_InitSucceedsExactlyWhenWellFormed :
    commandFields (.initSimonK72B48Cfb (zeros 9) (some (zeros 6)) none) =
        .init .simon 1#4 .cfb (zeros 9) (some (zeros 6)) none ∧
      wellFormed (.initSimonK72B48Cfb (zeros 9) (some (zeros 6)) none) = true ∧
      commandFields (.initSimonK72B48Cfb (zeros 9) (some (zeros 5)) none) =
        .init .simon 1#4 .cfb (zeros 9) (some (zeros 5)) none ∧
      wellFormed (.initSimonK72B48Cfb (zeros 9) (some (zeros 5)) none) = false := by
  decide +kernel

theorem witness_InstalledContextIsReadBack :
    resolve .speck 0#4 = some ⟨64, 32, 16, 4, 22, 4, 8, .speck 7 2⟩ ∧
      initOkWith State.reset (first (.initSpeckK64B32Cbc key64 (some chain4) none)) .speck 0#4 .cbc
        ⟨64, 32, 16, 4, 22, 4, 8, .speck 7 2⟩ key64 := by
  unfold initOkWith respondedWith
  decide +kernel

theorem witness_SurplusChainOperandIgnored :
    commandFields (.initSpeckK64B32Ctr key64 none (some chain4)) = .init .speck 0#4 .ctr key64 none (some chain4) ∧
      commandFields (.initSpeckK64B32Ctr key64 (some []) (some chain4)) =
        .init .speck 0#4 .ctr key64 (some []) (some chain4) ∧
      (Mode.ctr = .ctr → some chain4 = some chain4) ∧
      (Mode.ctr = .cbc ∨ Mode.ctr = .cfb ∨ Mode.ctr = .ofb → (none : Option Bytes) = some []) := by
  decide +kernel

theorem witness_InitReplacesWholeContext :
    State.reset.fresh = busy.fresh ∧
      exec (.initSpeckK64B32Cbc key64 (some chain4) none) State.reset =
        .next (first (.initSpeckK64B32Cbc key64 (some chain4) none)) ∧
      (∃ t, exec (.initSpeckK64B32Cbc key64 (some chain4) none) busy = .next t) ∧
      (first (.initSpeckK64B32Cbc key64 (some chain4) none)).responses =
        State.reset.responses ++ [{ status := 0#3, dout := none }] :=
  ⟨rfl, rfl, ⟨_, rfl⟩, by decide +kernel⟩

/-- The start of a run whose one command is the INIT of R220's example. -/
def initStart : State := runStart [encode (.initSpeckK64B32Cbc key64 (some chain4) none)] none

theorem witness_OnlyInitWritesKeysAndSelectors :
    ∃ t, step initStart = .next t ∧ ¬ sameKeys initStart t :=
  ⟨nextOf (step initStart), rfl, fun h => absurd h.1 (by decide +kernel)⟩

/-- Two states without a context whose context fields differ. -/
theorem witness_NoContextFieldReadBeforeInit :
    initStart.valid = 0#1 ∧ { initStart with cfg := 12#4, mode := 7#3 }.valid = 0#1 ∧
      ∃ t, step initStart = .next t :=
  ⟨rfl, rfl, _, rfl⟩

/-- The zero context of SPECK 64/32 in a mode. -/
def zeroContextOf (md : Mode) : Context := { busyContext with mode := md }

theorem zeroContext_context :
    ∀ m < 5, (zeroContext 1#1 0#4 (BitVec.ofNat 3 m)).context? = (modeOf (BitVec.ofNat 3 m)).map zeroContextOf := by
  decide +kernel

/-- One block, the shortest message, fits where no bound is set. -/
theorem one_block_fits (m : BitVec 3) : messageFits (zeroContext 1#1 0#4 m) 4 (zeros 4).length :=
  ⟨by decide, by decide, fun _ h => by simp [zeroContext, State.reset] at h⟩

/-- Two blocks fit exactly under the bound 2. -/
theorem two_blocks_fit : messageFits busy 4 (zeros 8).length :=
  ⟨by decide, by decide, fun most h => by
    simp only [busy, Option.some.injEq] at h
    subst h
    decide⟩

theorem witness_EcbRunsEachBlockAlone :
    (zeroContext 1#1 0#4 0#3).context? = some (zeroContextOf .ecb) ∧ (zeroContextOf .ecb).mode = .ecb ∧
      messageFits (zeroContext 1#1 0#4 0#3) (zeroContextOf .ecb).conf.Bb (zeros 4).length :=
  ⟨zeroContext_context 0 (by decide), rfl, one_block_fits _⟩

theorem witness_CbcChainsCiphertext :
    busy.context? = some busyContext ∧ busyContext.mode = .cbc ∧
      messageFits busy busyContext.conf.Bb (zeros 8).length :=
  ⟨busy_context, rfl, two_blocks_fit⟩

theorem witness_CfbChainsCiphertext :
    (zeroContext 1#1 0#4 3#3).context? = some (zeroContextOf .cfb) ∧ (zeroContextOf .cfb).mode = .cfb ∧
      messageFits (zeroContext 1#1 0#4 3#3) (zeroContextOf .cfb).conf.Bb (zeros 4).length :=
  ⟨zeroContext_context 3 (by decide), rfl, one_block_fits _⟩

theorem witness_OfbChainsKeystream :
    (zeroContext 1#1 0#4 4#3).context? = some (zeroContextOf .ofb) ∧ (zeroContextOf .ofb).mode = .ofb ∧
      messageFits (zeroContext 1#1 0#4 4#3) (zeroContextOf .ofb).conf.Bb (zeros 4).length :=
  ⟨zeroContext_context 4 (by decide), rfl, one_block_fits _⟩

theorem witness_CtrCountsBlocks :
    (zeroContext 1#1 0#4 1#3).context? = some (zeroContextOf .ctr) ∧ (zeroContextOf .ctr).mode = .ctr ∧
      messageFits (zeroContext 1#1 0#4 1#3) (zeroContextOf .ctr).conf.Bb (zeros 4).length :=
  ⟨zeroContext_context 1 (by decide), rfl, one_block_fits _⟩

theorem witness_CryptWritesOnlyChain :
    (∃ t, exec (.decrypt (zeros 8)) busy = .next t) ∧ (zeroContext 1#1 0#4 0#3).mode = 0#3 ∧
      ∃ t, exec (.encrypt (zeros 4)) (zeroContext 1#1 0#4 0#3) = .next t :=
  ⟨⟨_, rfl⟩, rfl, _, rfl⟩

/-- One block and one block, under the bound 2. -/
theorem witness_SplitMessageContinuesStream :
    busy.context? = some busyContext ∧ messageFits busy 4 (zeros 4).length ∧
      messageFits busy 4 (zeros 4 ++ zeros 4).length := by
  refine ⟨busy_context, ⟨by decide, by decide, fun most h => ?_⟩, two_blocks_fit⟩
  simp only [busy, Option.some.injEq] at h
  subst h
  decide

/-- The round trip of one block, the second INIT in a state that already holds another context. -/
theorem witness_FreshContextDecryptsMessage :
    let i : Instr := .initSpeckK64B32Cbc key64 (some chain4) none
    let m := natToBe 4 0x4c697465
    exec i State.reset = .next (first i) ∧
      (first i).responses = State.reset.responses ++ [{ status := 0#3, dout := none }] ∧
      exec (.encrypt m) (first i) = .next (nextOf (exec (.encrypt m) (first i))) ∧
      (nextOf (exec (.encrypt m) (first i))).responses =
        (first i).responses ++ [{ status := 0#3, dout := some (natToBe 4 0xc50ee264) }] ∧
      (∃ t, exec i (zeroContext 0#1 3#4 1#3) = .next t) ∧
      (zeroContext 0#1 3#4 1#3).maxBlocks = State.reset.maxBlocks :=
  ⟨rfl, by decide +kernel, rfl, by decide +kernel, ⟨_, rfl⟩, rfl⟩

theorem witness_KeystreamIndependentOfData :
    (zeroContext 1#1 0#4 4#3).context? = some (zeroContextOf .ofb) ∧
      messageFits (zeroContext 1#1 0#4 4#3) 4 (zeros 4).length ∧ chain4.length = (zeros 4).length :=
  ⟨zeroContext_context 4 (by decide), one_block_fits _, by decide⟩

theorem witness_RunResponsesDependOnlyOnCommands :
    initStart.valid = 0#1 ∧ { initStart with cfg := 12#4, fresh := 5 }.valid = 0#1 ∧
      initStart.pending = { initStart with cfg := 12#4, fresh := 5 }.pending := ⟨rfl, rfl, rfl⟩

/-- The first and the last bit of a 24-bit word. -/
theorem witness_RotateLeftMovesBits : 0 < 24 ∧ 23 < 24 := by decide

theorem witness_RotateRightMovesBits : 0 < 24 ∧ 23 < 24 := by decide

/-- The width 24, and 3 bytes with the first and the last place. -/
theorem witness_WordsAreLittleEndian : 24 % 8 = 0 ∧ (zeros 3).length = 24 / 8 ∧ 0 < 24 / 8 ∧ 2 < 24 / 8 := by decide

theorem witness_BlockHoldsYThenX : 24 % 8 = 0 ∧ (zeros 6).length = 2 * (24 / 8) := by decide

theorem witness_IncrementIsBigEndianAndWraps : 0xfe#8 ≠ 0xff#8 := by decide

theorem witness_XorBlockIsBytewise : (zeros 4).length = chain4.length ∧ 0 < (zeros 4).length ∧ 3 < (zeros 4).length := by
  decide

/-- The rows with the fewest and the most key words, at the first and the last index of the recurrence. -/
theorem witness_SimonScheduleRecurrence :
    (2 ≤ 2 ∧ 2 ≤ 4 ∧ 2 < 52 ∧ (List.replicate 2 0#48).length = 2 ∧ 2 ≤ 2 ∧ 51 < 52) ∧
      (2 ≤ 4 ∧ 4 ≤ 4 ∧ 4 < 32 ∧ (List.replicate 4 0#16).length = 4 ∧ 4 ≤ 4 ∧ 31 < 32) := by
  decide

theorem witness_SpeckScheduleRecurrence :
    2 ≤ 4 ∧ 1 ≤ 22 ∧ (List.replicate 4 0#16).length = 4 ∧ 2 + 2 ≤ 4 ∧ 0 + 2 ≤ 22 ∧ 20 + 2 ≤ 22 := by
  decide

theorem witness_SimonRoundBitByBit : 0 < 16 ∧ 15 < 16 := by decide

theorem witness_SpeckRoundOnNumbers : 0 < 16 ∧ 15 < 16 := by decide

theorem witness_TransformsRunRoundsInOrder : 0 < (List.replicate 22 0#16).length ∧ 21 < (List.replicate 22 0#16).length := by
  decide

theorem witness_SingleBlockTransformsInvert :
    resolve .speck 0#4 = some ⟨64, 32, 16, 4, 22, 4, 8, .speck 7 2⟩ ∧ chain4.length = 4 := by
  decide +kernel

/-- The first and the last CFG and mode of each family, with no operand and with both. -/
theorem witness_EncodedWordIsComposedOfSelectorNumbers :
    commandFields (.initSimonK64B32Ecb key64 none none) = .init .simon 0#4 .ecb key64 none none ∧
      commandFields (.initSpeckK256B128Ofb (zeros 32) (some (zeros 16)) (some [])) =
        .init .speck 9#4 .ofb (zeros 32) (some (zeros 16)) (some []) := by
  decide

/-- The lowest and the highest INIT word, and the two words of format X. -/
theorem witness_DecodedCommandHasSelectorsOfWord :
    decode (word 0x0000#16) = .instr (.initSimonK64B32Ecb [] none none) ∧
      decode (word 0x0e4c#16) = .instr (.initSpeckK256B128Ofb [] (some []) (some [])) ∧
      decode (word 0x0001#16) = .instr (.encrypt []) ∧ decode (word 0x0002#16) = .instr (.decrypt []) := by
  decide +kernel

theorem witness_ContextHoldsSelectorNumbers :
    (commandFields (.initSpeckK64B32Ofb key64 (some chain4) none) = .init .speck 0#4 .ofb key64 (some chain4) none ∧
      exec (.initSpeckK64B32Ofb key64 (some chain4) none) State.reset =
        .next (first (.initSpeckK64B32Ofb key64 (some chain4) none)) ∧
      (first (.initSpeckK64B32Ofb key64 (some chain4) none)).responses =
        State.reset.responses ++ [{ status := 0#3, dout := none }]) ∧
    ∃ x, (zeroContext 0#1 9#4 3#3).context? = some x := by
  refine ⟨⟨by decide, rfl, by decide +kernel⟩, ?_⟩
  exact Option.isSome_iff_exists.1 (by decide +kernel)

/-- One configuration of each family, at the first and the last key word, round word and index of the recurrence. -/
theorem witness_KeyScheduleRunsFamilyRecurrence :
    (resolve .simon 5#4 = some ⟨96, 96, 48, 2, 52, 12, 12, .simon 2⟩ ∧ (List.replicate 2 0#48).length = 2 ∧
      1 < 2 ∧ 2 ≤ 2 ∧ 2 < 52 ∧ 2 ≤ 51 ∧ 51 < 52) ∧
    resolve .speck 0#4 = some ⟨64, 32, 16, 4, 22, 4, 8, .speck 7 2⟩ ∧ (List.replicate 4 0#16).length = 4 ∧
      2 + 2 ≤ 4 ∧ 0 + 2 ≤ 22 ∧ 20 + 2 ≤ 22 := by
  decide +kernel

end Sys2Proof.Tests
end

/-! PROOFS. The outcomes of every command in the form that invariants and frames use, and the statements of
10_state.md: what is legal stays legal, what an INIT installs, and what the other commands leave alone. -/

namespace Sys2Proof.Machine

/-! ### Statuses -/

/-- OK alone has the code 0 (30_encoding.md R79). -/
theorem statusCode_eq_zero_iff {st : Status} : statusCode st = 0#3 ↔ st = .ok := by
  cases st <;> decide

theorem statusCode_lt_seven (st : Status) : (statusCode st).toNat < 7 := by cases st <;> decide

theorem responseLegal_error (st : Status) : responseLegal { status := statusCode st, dout := none } :=
  ⟨statusCode_lt_seven st, fun _ => rfl⟩

theorem responseLegal_ok (dout : Option Bytes) : responseLegal { status := 0#3, dout := dout } :=
  ⟨by simp, fun h => absurd rfl h⟩

/-! ### The three states a command can leave, field by field -/

theorem raise_respondedWith (s : State) (st : Status) : respondedWith s (s.raise st) (statusCode st) none :=
  ⟨rfl, rfl, rfl⟩

theorem raise_sameKeys (s : State) (st : Status) : sameKeys s (s.raise st) := ⟨rfl, rfl, rfl, rfl, rfl⟩

/-- An error response is no OK response. -/
theorem raise_responses_ne_ok {s : State} {st : Status} (hst : st ≠ .ok) (d : Option Bytes) :
    (s.raise st).responses ≠ s.responses ++ [{ status := 0#3, dout := d }] := by
  have hcode : statusCode st ≠ 0#3 := fun h => hst (statusCode_eq_zero_iff.1 h)
  simp [hcode]

section InitDone
variable (f : Family) (cfg : BitVec 4) (md : Mode) (c : Configuration) (key : Bytes) (chain0 : Option Bytes)
  (s : State)

@[simp] theorem initDone_valid : (initDone f cfg md c key chain0 s).valid = 1#1 := rfl
@[simp] theorem initDone_family : (initDone f cfg md c key chain0 s).family = familyCode f := rfl
@[simp] theorem initDone_cfg : (initDone f cfg md c key chain0 s).cfg = cfg := rfl
@[simp] theorem initDone_mode : (initDone f cfg md c key chain0 s).mode = modeCode md := rfl
@[simp] theorem initDone_rk :
    (initDone f cfg md c key chain0 s).rk = rkFile (keySchedule c (keyWordsOf c key)) s.fresh := rfl
@[simp] theorem initDone_chain :
    (initDone f cfg md c key chain0 s).chain = chainFile (chain0.getD []) s.fresh := rfl

theorem initDone_respondedWith : respondedWith s (initDone f cfg md c key chain0 s) 0#3 none := ⟨rfl, rfl, rfl⟩

/-- Every context field a successful INIT leaves is made of its operands and of free values (10_state.md
R36). -/
theorem initDone_sameContext {s u : State} (h : s.fresh = u.fresh) :
    sameContext (initDone f cfg md c key chain0 s) (initDone f cfg md c key chain0 u) := by
  simp [sameContext, h]

end InitDone

section CryptDone
variable (md : Mode) (chain dout : Bytes) (s : State)

theorem cryptDone_respondedWith : respondedWith s (cryptDone md chain dout s) 0#3 (some dout) := by
  simp [respondedWith, cryptDone, statusCode]

theorem cryptDone_sameKeys : sameKeys s (cryptDone md chain dout s) := by simp [sameKeys, cryptDone]

@[simp] theorem cryptDone_ecb_chain : (cryptDone .ecb chain dout s).chain = s.chain := rfl

end CryptDone

/-! ### The outcomes of a command -/

/-- What INIT does is decided by its fields and operands alone: it raises one error in every state, or installs
one context in every state. -/
theorem initContext_outcome {f : Family} {cfg : BitVec 4} {c : Configuration} (h : resolve f cfg = some c)
    (md : Mode) (key : Bytes) (iv ctr : Option Bytes) :
    (∃ st, st ≠ .ok ∧ ∀ s, initContext f cfg md key iv ctr s = .next (s.raise st)) ∨
    (∃ chain0, ∀ s, initContext f cfg md key iv ctr s = .next (initDone f cfg md c key chain0 s)) := by
  by_cases hk : key.length = c.Kb
  · cases hc : initialChain md c.Bb iv ctr with
    | missing => exact .inl ⟨.missingChainValue, by decide, fun s => by simp [initContext, h, hk, hc]⟩
    | notRequired => exact .inr ⟨none, fun s => by simp [initContext, h, hk, hc, initWork_eq h hk]⟩
    | value b => exact .inr ⟨some b, fun s => by simp [initContext, h, hk, hc, initWork_eq h hk]⟩
  · exact .inl ⟨.invalidKeyLength, by decide, fun s => by simp [initContext, h, hk]⟩

/-- The same of every INIT constructor. -/
theorem exec_init_outcome {i : Instr} {f : Family} {cfg : BitVec 4} {md : Mode} {key : Bytes}
    {iv ctr : Option Bytes} (h : commandFields i = .init f cfg md key iv ctr) :
    (∃ st, st ≠ .ok ∧ ∀ s, exec i s = .next (s.raise st)) ∨
    (∃ c chain0, resolve f cfg = some c ∧ ∀ s, exec i s = .next (initDone f cfg md c key chain0 s)) := by
  obtain ⟨c, hc⟩ := resolve_of_init h
  simp only [exec_init h]
  rcases initContext_outcome hc md key iv ctr with herr | ⟨chain0, hok⟩
  · exact .inl herr
  · exact .inr ⟨c, chain0, hc, hok⟩

/-- An ENCRYPT or DECRYPT that completes has raised an error, or has run its blocks in the context it read. -/
theorem cryptMessage_next {dir : Direction} {din : Bytes} {s t : State} (h : cryptMessage dir din s = .next t) :
    (∃ st, st ≠ .ok ∧ t = s.raise st) ∨
    (∃ x chain dout, s.context? = some x ∧ t = cryptDone x.mode chain dout s) := by
  rcases cryptMessage_cases dir din s with
    ⟨_, e⟩ | ⟨_, _, e⟩ | ⟨x, _, _, e⟩ | ⟨x, chain, dout, hx, _, _, _, e⟩ <;> rw [e] at h <;> cases h
  · exact .inl ⟨.notInitialized, by decide, rfl⟩
  · exact .inl ⟨.invalidLength, by decide, rfl⟩
  · exact .inr ⟨x, chain, dout, hx, rfl⟩

/-- All that a command that completes can have done. -/
theorem exec_next {i : Instr} {s t : State} (h : exec i s = .next t) :
    (∃ st, st ≠ .ok ∧ t = s.raise st) ∨
    (∃ f cfg md key iv ctr c chain0, commandFields i = .init f cfg md key iv ctr ∧ resolve f cfg = some c ∧
      t = initDone f cfg md c key chain0 s ∧ ∀ u, exec i u = .next (initDone f cfg md c key chain0 u)) ∨
    (∃ x chain dout, s.context? = some x ∧ t = cryptDone x.mode chain dout s) := by
  rcases instr_cases i with ⟨f, cfg, md, key, iv, ctr, hi⟩ | ⟨din, rfl⟩ | ⟨din, rfl⟩
  · rcases exec_init_outcome hi with ⟨st, hst, herr⟩ | ⟨c, chain0, hc, hok⟩
    · exact .inl ⟨st, hst, (Host.Outcome.next.inj ((herr s).symm.trans h)).symm⟩
    · exact .inr (.inl ⟨f, cfg, md, key, iv, ctr, c, chain0, hi, hc,
        (Host.Outcome.next.inj ((hok s).symm.trans h)).symm, hok⟩)
  · exact (cryptMessage_next h).imp_right .inr
  · exact (cryptMessage_next h).imp_right .inr

/-- Without a context every command but a successful INIT raises an error that is the same in every such state
(10_state.md R35). -/
theorem exec_without_context (i : Instr) :
    (∃ st, ∀ s : State, s.valid = 0#1 → exec i s = .next (s.raise st)) ∨
    (∃ f cfg md c key chain0, ∀ s, exec i s = .next (initDone f cfg md c key chain0 s)) := by
  have hcrypt (dir : Direction) (din : Bytes) (s : State) (hv : s.valid = 0#1) :
      cryptMessage dir din s = .next (s.raise .notInitialized) := by simp [cryptMessage, hv]
  rcases instr_cases i with ⟨f, cfg, md, key, iv, ctr, hi⟩ | ⟨din, rfl⟩ | ⟨din, rfl⟩
  · rcases exec_init_outcome hi with ⟨st, _, herr⟩ | ⟨c, chain0, _, hok⟩
    · exact .inl ⟨st, fun s _ => herr s⟩
    · exact .inr ⟨f, cfg, md, c, key, chain0, hok⟩
  · exact .inl ⟨.notInitialized, hcrypt .enc din⟩
  · exact .inl ⟨.notInitialized, hcrypt .dec din⟩

/-! ### The step, by the command it runs -/

theorem step_of_idle {s : State} (h : s.pending = []) : step s = .next s := by simp [step, issueNext, h]

theorem step_of_rejected {s : State} {tr : Transaction} {rest : List Transaction} {r : Reject}
    (hp : s.pending = tr :: rest) (hd : decode tr = .rejected r) :
    step s = .next (State.raise { s with pending := rest } (rejectStatus r)) := by
  simp [step, issueNext, runTransaction, hp, hd]

theorem step_of_instr {s : State} {tr : Transaction} {rest : List Transaction} {i : Instr}
    (hp : s.pending = tr :: rest) (hd : decode tr = .instr i) : step s = exec i { s with pending := rest } := by
  simp [step, issueNext, runTransaction, hp, hd]

/-! ### Legal states -/

/-- Whether a context is legal depends on its selectors and subkeys alone. -/
theorem contextLegal_of_sameKeys {s t : State} (h : sameKeys s t) (hs : contextLegal s) : contextLegal t := by
  obtain ⟨hv, hf, hc, hm, hrk⟩ := h
  simpa only [contextLegal, hv, hf, hc, hm, hrk] using hs

/-- An entry of `RK` that holds a subkey is that n-bit word, zero-extended (10_state.md R25, R32). -/
theorem rkFile_toNat_lt {n : Nat} {ks : List (Word n)} (fresh : Nat) {i : Nat} (h : i < 72) (hi : i < ks.length) :
    (rkFile ks fresh)[i].toNat < 2 ^ n := by
  rw [rkFile_getElem, List.getElem?_eq_getElem hi, Option.map_some, Option.getD_some, BitVec.toNat_setWidth]
  exact lt_of_le_of_lt (Nat.mod_le _ _) ks[i].isLt

/-- A successful INIT installs a legal context. -/
theorem contextLegal_initDone {f : Family} {cfg : BitVec 4} {c : Configuration} (h : resolve f cfg = some c)
    (md : Mode) (key : Bytes) (chain0 : Option Bytes) (s : State) :
    contextLegal (initDone f cfg md c key chain0 s) := by
  have hlen : (keySchedule c (keyWordsOf c key)).length = c.T := keySchedule_length h (by simp [keyWordsOf])
  exact fun _ => ⟨c, md, by simpa using h, by simp, fun i h72 hi => rkFile_toNat_lt s.fresh h72 (hlen ▸ hi)⟩

/-- One legal response more, over a legal context, is a legal state again. -/
theorem legal_of_respondedWith {s t : State} {code : BitVec 3} {dout : Option Bytes} (hs : legal s)
    (hc : contextLegal t) (ht : respondedWith s t code dout)
    (hr : responseLegal { status := code, dout := dout }) : legal t := by
  obtain ⟨_, hresp, hbound⟩ := hs
  obtain ⟨hresp', _, hbound'⟩ := ht
  refine ⟨hc, fun r hmem => ?_, by simpa only [boundLegal, hbound'] using hbound⟩
  rw [hresp', List.mem_append, List.mem_singleton] at hmem
  rcases hmem with hold | rfl
  · exact hresp r hold
  · exact hr

theorem legal_raise {s : State} (hs : legal s) (st : Status) : legal (s.raise st) :=
  legal_of_respondedWith hs (contextLegal_of_sameKeys (raise_sameKeys s st) hs.1) (raise_respondedWith s st)
    (responseLegal_error st)

/-- Every command keeps a state legal. -/
theorem exec_keeps_legal {i : Instr} {s t : State} (hs : legal s) (h : exec i s = .next t) : legal t := by
  rcases exec_next h with ⟨st, _, rfl⟩ | ⟨f, cfg, md, key, _, _, c, chain0, _, hc, rfl, _⟩ | ⟨x, chain, dout, _, rfl⟩
  · exact legal_raise hs st
  · exact legal_of_respondedWith hs (contextLegal_initDone hc md key chain0 s)
      (initDone_respondedWith f cfg md c key chain0 s) (responseLegal_ok none)
  · exact legal_of_respondedWith hs (contextLegal_of_sameKeys (cryptDone_sameKeys x.mode chain dout s) hs.1)
      (cryptDone_respondedWith x.mode chain dout s) (responseLegal_ok (some dout))

/-- Settles O3, over the outcomes of a step: taking a command off the host's list leaves a state legal, and so
does what the command then does. -/
theorem everyStepKeepsLegal : Obligations.EveryStepKeepsLegal := by
  unfold Obligations.EveryStepKeepsLegal
  intro s t hs h
  rcases step_cases s with ⟨_, e⟩ | ⟨_, rest, r, _, _, e⟩ | ⟨_, rest, i, _, _, e⟩ <;> rw [e] at h
  · cases h
    exact hs
  · cases h
    exact legal_raise (s := { s with pending := rest }) hs (rejectStatus r)
  · exact exec_keeps_legal (s := { s with pending := rest }) hs h

/-! ### What an INIT installs -/

/-- Subkeys read from entries that hold the words of a list, zero-extended, are that list (10_state.md R25). -/
theorem subkeysOf_eq {c : Configuration} {rk : Vector (BitVec 64) 72} {ks : List (Word c.n)} (hlen : ks.length = c.T)
    (hT : c.T ≤ 72) (hn : c.n ≤ 64)
    (h : ∀ i (h72 : i < 72), i < c.T → rk[i] = (ks.getD i 0#c.n).setWidth 64) : subkeysOf c rk = ks := by
  refine List.ext_getElem (by simp [subkeysOf, hlen, hT]) fun i _ hi => ?_
  have hiT : i < c.T := hlen ▸ hi
  simp [subkeysOf, h i (by omega) hiT, hi, BitVec.setWidth_setWidth_of_le _ hn]

/-- Settles O24, by the guarded read of the fields that `initOkWith` lists. -/
theorem installedContextIsReadBack : Obligations.InstalledContextIsReadBack := by
  unfold Obligations.InstalledContextIsReadBack
  intro s t f cfg md c key hc ⟨_, hv, hf, hcfg, hm, hlen, hrk⟩
  have hks : subkeysOf c t.rk = keySchedule c (keyWordsOf c key) :=
    subkeysOf_eq hlen (resolve_T_le hc) (resolve_n_le hc) hrk
  refine context?_eq_some_iff.2 ⟨by simp [hv], c, md, by simp [hf, hcfg, hc], by simp [hm], ?_⟩
  simp [hf, hcfg, hks, chainValue]

/-- Settles O26: OK without data is answered by a successful INIT alone, and what that leaves in the context is
made of its operands. -/
theorem initReplacesWholeContext : Obligations.InitReplacesWholeContext := by
  unfold Obligations.InitReplacesWholeContext
  intro i s u t t' hfresh hs hu hok
  rcases exec_next hs with
    ⟨st, hst, rfl⟩ | ⟨f, cfg, md, key, _, _, c, chain0, _, _, rfl, hexec⟩ | ⟨x, chain, dout, _, rfl⟩
  · exact absurd hok (raise_responses_ne_ok hst none)
  · obtain rfl := Host.Outcome.next.inj ((hexec u).symm.trans hu)
    exact ⟨initDone_sameContext f cfg md c key chain0 hfresh, (initDone_respondedWith f cfg md c key chain0 u).1⟩
  · rw [(cryptDone_respondedWith x.mode chain dout s).1] at hok
    simp at hok

/-- The number stored for a family is the literal number of the family it stands for. -/
theorem toNat_eq_familyNumber (b : BitVec 1) : b.toNat = familyNumber (familyOf b) := by revert b; decide

/-- The number stored for a mode is the literal number of the mode it stands for. -/
theorem toNat_eq_modeNumber {b : BitVec 3} {md : Mode} (h : modeOf b = some md) : b.toNat = modeNumber md := by
  revert b md; decide

/-- Settles O59: an INIT that responds OK has installed its selectors' codes, and the guarded read gives the
selectors that the stored codes stand for; the codes are the literal numbers. -/
theorem contextHoldsSelectorNumbers : Obligations.ContextHoldsSelectorNumbers := by
  unfold Obligations.ContextHoldsSelectorNumbers
  refine ⟨fun i f cfg md key iv ctr s t hi h hok => ?_, fun s x hx => ?_⟩
  · rcases exec_init_outcome hi with ⟨st, hst, herr⟩ | ⟨c, chain0, _, hdone⟩
    · obtain rfl := Host.Outcome.next.inj ((herr s).symm.trans h)
      exact absurd hok (raise_responses_ne_ok hst none)
    · obtain rfl := Host.Outcome.next.inj ((hdone s).symm.trans h)
      exact ⟨rfl, by simp [toNat_eq_familyNumber], rfl, toNat_eq_modeNumber (by simp)⟩
  · obtain ⟨_, c, md, hc, hm, rfl⟩ := context?_eq_some_iff.1 hx
    exact ⟨toNat_eq_familyNumber s.family, rfl, toNat_eq_modeNumber hm, hc⟩

/-! ### What the other commands leave alone -/

/-- Settles O27: of the outcomes of a step only the successful INIT writes a selector or `RK`. -/
theorem onlyInitWritesKeysAndSelectors : Obligations.OnlyInitWritesKeysAndSelectors := by
  unfold Obligations.OnlyInitWritesKeysAndSelectors
  intro s t h hkeys
  rcases step_cases s with ⟨_, e⟩ | ⟨_, rest, r, _, _, e⟩ | ⟨tr, rest, i, hp, hd, e⟩ <;> rw [e] at h
  · cases h
    exact absurd ⟨rfl, rfl, rfl, rfl, rfl⟩ hkeys
  · cases h
    exact absurd (raise_sameKeys { s with pending := rest } (rejectStatus r)) hkeys
  · rcases exec_next h with
      ⟨st, _, rfl⟩ | ⟨f, cfg, md, key, iv, ctr, c, chain0, hi, _, rfl, _⟩ | ⟨x, chain, dout, _, rfl⟩
    · exact absurd (raise_sameKeys { s with pending := rest } st) hkeys
    · exact ⟨tr, rest, i, f, cfg, md, key, iv, ctr, hp, hd, hi, rfl, rfl⟩
    · exact absurd (cryptDone_sameKeys x.mode chain dout { s with pending := rest }) hkeys

/-- An ENCRYPT or DECRYPT that completes: its frame. -/
theorem cryptMessage_frame {dir : Direction} {din : Bytes} {s t : State} (h : cryptMessage dir din s = .next t) :
    sameKeys s t ∧ (s.mode = 0#3 → t.chain = s.chain) ∧ ∃ code dout, respondedWith s t code dout := by
  rcases cryptMessage_next h with ⟨st, _, rfl⟩ | ⟨x, chain, dout, hx, rfl⟩
  · exact ⟨raise_sameKeys s st, fun _ => rfl, _, _, raise_respondedWith s st⟩
  · refine ⟨cryptDone_sameKeys .., fun hecb => ?_, _, _, cryptDone_respondedWith x.mode chain dout s⟩
    obtain ⟨_, c, md, _, hm, rfl⟩ := context?_eq_some_iff.1 hx
    obtain rfl : Mode.ecb = md := Option.some.inj ((congrArg modeOf hecb).symm.trans hm)
    exact cryptDone_ecb_chain chain dout s

/-- Settles O34, by the frame that ENCRYPT and DECRYPT share. -/
theorem cryptWritesOnlyChain : Obligations.CryptWritesOnlyChain := by
  unfold Obligations.CryptWritesOnlyChain
  intro s t din i hi h
  obtain ⟨dir, hdir⟩ : ∃ dir, cryptMessage dir din s = .next t := by
    rcases hi with rfl | rfl
    · exact ⟨.enc, h⟩
    · exact ⟨.dec, h⟩
  obtain ⟨hkeys, hecb, _, _, hresp, hpending, hbound⟩ := cryptMessage_frame hdir
  exact ⟨hkeys, hecb, hpending, hbound, _, hresp⟩

/-! ### Before the first INIT -/

/-- What the host observes of two states is the same, and the same context exists in both if in one. -/
def sameOutcome (t t' : State) : Prop :=
  t'.responses = t.responses ∧ t'.pending = t.pending ∧ t'.valid = t.valid ∧ (t.valid = 1#1 → sameContext t t')

/-- Without a context nothing of the two states' context fields has to agree. -/
theorem sameOutcome_of_invalid {t t' : State} (ht : t.valid = 0#1) (ht' : t'.valid = 0#1)
    (hr : t'.responses = t.responses) (hp : t'.pending = t.pending) : sameOutcome t t' :=
  ⟨hr, hp, ht'.trans ht.symm, fun h => by simp [ht] at h⟩

section Agree
variable {s u : State} (hs : s.valid = 0#1) (hu : u.valid = 0#1) (hp : u.pending = s.pending)
  (hr : u.responses = s.responses)
include hs hu hp hr

theorem sameOutcome_raise (st : Status) : sameOutcome (s.raise st) (u.raise st) :=
  sameOutcome_of_invalid hs hu (by simp [hr]) hp

/-- A command run in two states without a context has the same outcome in both (10_state.md R35). -/
theorem exec_sameOutcome (hfresh : s.fresh = u.fresh) {i : Instr} {t : State} (h : exec i s = .next t) :
    ∃ t', exec i u = .next t' ∧ sameOutcome t t' := by
  rcases exec_without_context i with ⟨st, herr⟩ | ⟨f, cfg, md, c, key, chain0, hok⟩
  · obtain rfl := Host.Outcome.next.inj ((herr s hs).symm.trans h)
    exact ⟨_, herr u hu, sameOutcome_raise hs hu hp hr st⟩
  · obtain rfl := Host.Outcome.next.inj ((hok s).symm.trans h)
    obtain ⟨hrs, hps, _⟩ := initDone_respondedWith f cfg md c key chain0 s
    obtain ⟨hru, hpu, _⟩ := initDone_respondedWith f cfg md c key chain0 u
    exact ⟨_, hok u, by rw [hrs, hru, hr], by rw [hps, hpu, hp], rfl,
      fun _ => initDone_sameContext f cfg md c key chain0 hfresh⟩

end Agree

/-- Settles O28: the two steps read the same command off the host's list, and it has the same outcome in both
states. -/
theorem noContextFieldReadBeforeInit : Obligations.NoContextFieldReadBeforeInit := by
  unfold Obligations.NoContextFieldReadBeforeInit
  intro s u t hs hu hp hr _ hfresh h
  rcases step_cases s with ⟨hps, e⟩ | ⟨tr, rest, r, hps, hd, e⟩ | ⟨tr, rest, i, hps, hd, e⟩ <;> rw [e] at h
  · cases h
    exact ⟨u, step_of_idle (hp ▸ hps), sameOutcome_of_invalid hs hu hr.symm hp.symm⟩
  · cases h
    exact ⟨_, step_of_rejected (hp ▸ hps) hd,
      sameOutcome_raise (s := { s with pending := rest }) (u := { u with pending := rest }) hs hu rfl hr.symm _⟩
  · rw [step_of_instr (hp ▸ hps) hd]
    exact exec_sameOutcome (s := { s with pending := rest }) (u := { u with pending := rest }) hs hu rfl hr.symm
      hfresh h

/-! ### Reset -/

/-- The guarded read gives nothing while `CTX.VALID` is 0 (10_state.md R35). -/
theorem context?_eq_none_of_invalid {s : State} (h : s.valid = 0#1) : s.context? = none := by
  simp [State.context?, h]

/-- Settles O1, by the fields of the reset state. -/
theorem resetHoldsNoContext : Obligations.ResetHoldsNoContext := by
  unfold Obligations.ResetHoldsNoContext
  exact ⟨rfl, context?_eq_none_of_invalid rfl, rfl, rfl, rfl⟩

end Sys2Proof.Machine

/-! PROOFS. What a byte string is as a number, and the statements of 20_memory.md on words and blocks in buffers. -/

namespace Sys2Proof.Machine

/-! ### The number a byte string holds -/

/-- `leNat` reads the bytes as digits in base 256, the least significant first (20_memory.md R52). -/
theorem leNat_eq_ofDigits (s : Bytes) : leNat s = Nat.ofDigits 256 (s.map BitVec.toNat) := by
  induction s with
  | nil => rfl
  | cons b s ih => rw [leNat, ih, List.map_cons, Nat.ofDigits_cons]

theorem toNat_lt_of_mem_map {s : Bytes} {d : Nat} (h : d ∈ s.map BitVec.toNat) : d < 256 := by
  obtain ⟨b, _, rfl⟩ := List.mem_map.1 h
  exact b.isLt

theorem leNat_append (s t : Bytes) : leNat (s ++ t) = leNat s + 256 ^ s.length * leNat t := by
  simp [leNat_eq_ofDigits, Nat.ofDigits_append]

theorem leNat_lt (s : Bytes) : leNat s < 256 ^ s.length := by
  simpa [leNat_eq_ofDigits] using
    Nat.ofDigits_lt_base_pow_length (by decide) fun _ => toNat_lt_of_mem_map (s := s)

/-- Byte strings of one length are told apart by their numbers. -/
theorem leNat_inj {s t : Bytes} (hlen : s.length = t.length) (h : leNat s = leNat t) : s = t := by
  rw [leNat_eq_ofDigits, leNat_eq_ofDigits] at h
  exact List.map_injective_iff.2 (fun _ _ => BitVec.eq_of_toNat_eq)
    (Nat.ofDigits_inj_of_len_eq (by decide) (by simp [hlen]) (fun _ => toNat_lt_of_mem_map)
      (fun _ => toNat_lt_of_mem_map) h)

theorem leNat_eq_sum (s : Bytes) :
    leNat s = ∑ k ∈ Finset.range s.length, (s.getD k 0#8).toNat * 2 ^ (8 * k) := by
  induction s with
  | nil => rfl
  | cons b s ih =>
    have hshift (k : Nat) : 2 ^ (8 * (k + 1)) = 256 * 2 ^ (8 * k) := by rw [Nat.mul_succ, Nat.pow_add, Nat.mul_comm]
    rw [leNat, ih, List.length_cons, Finset.sum_range_succ', Finset.mul_sum, Nat.add_comm]
    simp [hshift, Nat.mul_left_comm]

/-! ### Words -/

/-- The numbers of `n/8` bytes are those of an n-bit word. -/
theorem pow_word_bytes {n : Nat} (h : n % 8 = 0) : 256 ^ (n / 8) = 2 ^ n := by
  rw [show 256 = 2 ^ 8 from rfl, ← Nat.pow_mul, Nat.mul_div_cancel' (Nat.dvd_of_mod_eq_zero h)]

/-- Byte `k` of `WordToBytes` is `w[8k+7:8k]` (20_memory.md R52). -/
theorem wordToBytes_getD {n : Nat} (w : Word n) {k : Nat} (h : k < n / 8) :
    ((wordToBytes w).getD k 0#8).toNat = w.toNat / 2 ^ (8 * k) % 256 := by
  simp [wordToBytes, h, Nat.shiftRight_eq_div_pow]

/-- The lowest `m` bytes of a word, read little-endian, are the word below `2^(8m)`. -/
theorem leNat_map_extractLsb' {n : Nat} (w : Word n) (m : Nat) :
    leNat ((List.range m).map fun k => w.extractLsb' (8 * k) 8) = w.toNat % 256 ^ m := by
  induction m with
  | zero => simp [leNat, Nat.mod_one]
  | succ m ih =>
    have hbyte : (w.extractLsb' (8 * m) 8).toNat = w.toNat / 256 ^ m % 256 := by
      rw [BitVec.extractLsb'_toNat, Nat.shiftRight_eq_div_pow, Nat.pow_mul]
    rw [List.range_succ, List.map_append, leNat_append, ih, Nat.pow_succ, Nat.mod_mul]
    simp [leNat, hbyte]

theorem leNat_wordToBytes {n : Nat} (h : n % 8 = 0) (w : Word n) : leNat (wordToBytes w) = w.toNat := by
  rw [wordToBytes, leNat_map_extractLsb', pow_word_bytes h, Nat.mod_eq_of_lt w.isLt]

theorem toNat_bytesToWord {n : Nat} (h : n % 8 = 0) {s : Bytes} (hs : s.length = n / 8) :
    (bytesToWord n s).toNat = leNat s := by
  rw [bytesToWord, BitVec.toNat_ofNat, ← pow_word_bytes h, ← hs, Nat.mod_eq_of_lt (leNat_lt s)]

theorem bytesToWord_wordToBytes {n : Nat} (h : n % 8 = 0) (w : Word n) : bytesToWord n (wordToBytes w) = w :=
  BitVec.eq_of_toNat_eq ((toNat_bytesToWord h (wordToBytes_length w)).trans (leNat_wordToBytes h w))

theorem wordToBytes_bytesToWord {n : Nat} (h : n % 8 = 0) {s : Bytes} (hs : s.length = n / 8) :
    wordToBytes (bytesToWord n s) = s :=
  leNat_inj ((wordToBytes_length _).trans hs.symm) ((leNat_wordToBytes h _).trans (toNat_bytesToWord h hs))

/-- Settles O43, by the number that a word and its byte string share. -/
theorem wordsAreLittleEndian : Obligations.WordsAreLittleEndian := by
  unfold Obligations.WordsAreLittleEndian
  refine fun n h => ⟨fun s hs => ⟨?_, wordToBytes_bytesToWord h hs⟩, fun w =>
    ⟨wordToBytes_length w, bytesToWord_wordToBytes h w, fun _ => wordToBytes_getD w⟩⟩
  rw [toNat_bytesToWord h hs, leNat_eq_sum, hs]

/-! ### Blocks -/

/-- A block is the little-endian serialisation of `x ‖ y` (20_memory.md R53). -/
theorem leNat_wordsToBlock {n : Nat} (h : n % 8 = 0) (x y : Word n) :
    leNat (wordsToBlock (x, y)) = x.toNat * 2 ^ n + y.toNat := by
  rw [wordsToBlock, leNat_append, leNat_wordToBytes h, leNat_wordToBytes h, wordToBytes_length, pow_word_bytes h,
    Nat.add_comm, Nat.mul_comm]

theorem blockToWords_wordsToBlock {n : Nat} (h : n % 8 = 0) (p : Word n × Word n) :
    blockToWords n (wordsToBlock p) = p := by
  have hy : (wordsToBlock p).take (n / 8) = wordToBytes p.2 := List.take_left' (wordToBytes_length p.2)
  have hx : ((wordsToBlock p).drop (n / 8)).take (n / 8) = wordToBytes p.1 := by
    rw [wordsToBlock, List.drop_left' (wordToBytes_length p.2),
      List.take_of_length_le (wordToBytes_length p.1).le]
  rw [blockToWords, hx, hy, bytesToWord_wordToBytes h, bytesToWord_wordToBytes h]

theorem wordsToBlock_blockToWords {n : Nat} (h : n % 8 = 0) {b : Bytes} (hb : b.length = 2 * (n / 8)) :
    wordsToBlock (blockToWords n b) = b := by
  have hy : (b.take (n / 8)).length = n / 8 := by rw [List.length_take]; omega
  have hx : (b.drop (n / 8)).length = n / 8 := by rw [List.length_drop]; omega
  rw [blockToWords, List.take_of_length_le hx.le, wordsToBlock, wordToBytes_bytesToWord h hy,
    wordToBytes_bytesToWord h hx, List.take_append_drop]

/-- Settles O44, by the number of a block and the two inverses. -/
theorem blockHoldsYThenX : Obligations.BlockHoldsYThenX := by
  unfold Obligations.BlockHoldsYThenX
  exact fun n h => ⟨fun x y => ⟨rfl, leNat_wordsToBlock h x y, blockToWords_wordsToBlock h (x, y)⟩,
    fun _ => wordsToBlock_blockToWords h⟩

end Sys2Proof.Machine

/-! PROOFS. The decoder by the fields of its word, the encoder by the fields of its command, and the statements of
30_encoding.md: the two are inverse to each other, and both follow the literal numbers of the selectors. -/

namespace Sys2Proof

open Sys2Proof.Machine

/-! ### The fields of a command word by their numbers -/

theorem opField_eq_iff {w : BitVec 16} {b : BitVec 2} : opField w = b ↔ w.toNat % 4 = b.toNat := by
  obtain ⟨hop, _⟩ := field_numbers w
  rw [← hop, BitVec.toNat_inj]

theorem reservedI_eq_zero_iff {w : BitVec 16} : reservedI w = 0#4 ↔ w.toNat / 4096 = 0 := by
  obtain ⟨_, _, _, _, _, _, hI, _⟩ := field_numbers w
  rw [← hI, ← BitVec.toNat_inj, BitVec.toNat_ofNat, Nat.zero_mod]

theorem reservedX_eq_zero_iff {w : BitVec 16} : reservedX w = 0#14 ↔ w.toNat / 4 = 0 := by
  obtain ⟨_, _, _, _, _, _, _, hX⟩ := field_numbers w
  rw [← hX, ← BitVec.toNat_inj, BitVec.toNat_ofNat, Nat.zero_mod]

/-- A format X word without reserved bits is its OP (R71). -/
theorem toNat_eq_of_formatX {w : BitVec 16} {b : BitVec 2} (hop : opField w = b) (hX : reservedX w = 0#14) :
    w.toNat = b.toNat := by
  rw [opField_eq_iff] at hop
  rw [reservedX_eq_zero_iff] at hX
  omega

/-- An operand is supplied exactly when its presence bit is the number 1 (R76). -/
theorem presentWhen_eq_ite (p : BitVec 1) (b : Bytes) :
    presentWhen p b = if p.toNat = 1 then some b else none := by
  simp [presentWhen, ← BitVec.toNat_inj]

theorem presenceBit_toNat (b : Option Bytes) : (presenceBit b).toNat = if b.isSome then 1 else 0 := by
  cases b <;> rfl

/-! ### The decoder, by OP -/

section ByOp
variable {t : Transaction}

theorem decode_of_op_zero (h : opField t.cmd = 0#2) : decode t = decodeInit t := by simp [decode, h]

theorem decode_of_op_one (h : opField t.cmd = 1#2) : decode t = decodeX t.cmd (.encrypt t.din) := by
  simp [decode, h]

theorem decode_of_op_two (h : opField t.cmd = 2#2) : decode t = decodeX t.cmd (.decrypt t.din) := by
  simp [decode, h]

theorem decode_of_op_three (h : opField t.cmd = 3#2) : decode t = .rejected .illegalCommand := by
  simp [decode, h]

end ByOp

/-- A format I word with legal fields decodes to the constructor of its row, with the buffers its presence bits
announce (R71, R76). -/
theorem decodeInit_of_row {t : Transaction} {md : Mode} {mk : Bytes → Option Bytes → Option Bytes → Instr}
    (hr : reservedI t.cmd = 0#4) (hm : modeOf (modeField t.cmd) = some md)
    (hrow : initRow (familyOf (familyField t.cmd)) (cfgField t.cmd) md = some mk) :
    decodeInit t =
      .instr (mk t.key (presentWhen (ivpField t.cmd) t.iv) (presentWhen (ctrpField t.cmd) t.ctr)) := by
  simp [decodeInit, hr, hm, hrow]

/-- The outcomes of a format I decoding, by the word's number (R78). -/
theorem decodeInit_cases (t : Transaction) :
    (decodeInit t = .rejected .illegalCommand ∧ (t.cmd.toNat / 4096 ≠ 0 ∨ 5 ≤ t.cmd.toNat / 128 % 8)) ∨
    (t.cmd.toNat / 4096 = 0 ∧ t.cmd.toNat / 128 % 8 < 5 ∧
      ((decodeInit t = .rejected .unsupportedConfiguration ∧ 10 ≤ t.cmd.toNat / 8 % 16) ∨
        (∃ i, decodeInit t = .instr i) ∧ t.cmd.toNat / 8 % 16 < 10)) := by
  obtain ⟨_, _, hcfg, hmode, _⟩ := field_numbers t.cmd
  rw [← hcfg, ← hmode, ne_eq, ← reservedI_eq_zero_iff]
  by_cases hr : reservedI t.cmd = 0#4
  · rcases modeOf_cases (modeField t.cmd) with ⟨hlt, md, hm, _⟩ | ⟨hge, hm⟩
    · refine .inr ⟨hr, hlt, ?_⟩
      rcases initRow_cases (familyOf (familyField t.cmd)) (cfgField t.cmd) md with
        ⟨hpub, mk, hrow, _⟩ | ⟨hunpub, hrow⟩
      · exact .inr ⟨⟨_, decodeInit_of_row hr hm hrow⟩, hpub⟩
      · exact .inl ⟨by simp [decodeInit, hr, hm, hrow], hunpub⟩
    · exact .inl ⟨by simp [decodeInit, hr, hm], .inr hge⟩
  · exact .inl ⟨by simp [decodeInit, hr], .inl hr⟩

/-- The outcomes of a format X decoding, by the word's number (R78). -/
theorem decodeX_cases (w : BitVec 16) (i : Instr) :
    (decodeX w i = .rejected .illegalCommand ∧ w.toNat / 4 ≠ 0) ∨ (decodeX w i = .instr i ∧ w.toNat / 4 = 0) := by
  rw [ne_eq, ← reservedX_eq_zero_iff]
  by_cases hX : reservedX w = 0#14
  · exact .inr ⟨by simp [decodeX, hX], hX⟩
  · exact .inl ⟨by simp [decodeX, hX], hX⟩

/-! ### The decoder, on the words that the encoder composes -/

/-- A composed word with CFG 0 to 9 decodes to the row its selectors name (R71, R82). -/
theorem decode_initWord {f : Family} {cfg : BitVec 4} {md : Mode}
    {mk : Bytes → Option Bytes → Option Bytes → Instr} (hrow : initRow f cfg md = some mk) (ivp ctrp : BitVec 1)
    (key iv ctr din : Bytes) :
    decode ⟨initWord (familyCode f) cfg (modeCode md) ivp ctrp, key, iv, ctr, din⟩ =
      .instr (mk key (presentWhen ivp iv) (presentWhen ctrp ctr)) := by
  obtain ⟨hop, hr, hfam, hcfg, hmode, hivp, hctrp⟩ := initWord_fields (familyCode f) cfg (modeCode md) ivp ctrp
  rw [decode_of_op_zero hop, decodeInit_of_row (md := md) (mk := mk)]
  · simp only [hivp, hctrp]
  · exact hr
  · simp [hmode]
  · simp [hfam, hcfg, hrow]

theorem decode_encryptWord (key iv ctr din : Bytes) :
    decode ⟨0x0001#16, key, iv, ctr, din⟩ = .instr (.encrypt din) := by
  rw [decode_of_op_one rfl]
  simp [decodeX, reservedX_eq_zero_iff]

theorem decode_decryptWord (key iv ctr din : Bytes) :
    decode ⟨0x0002#16, key, iv, ctr, din⟩ = .instr (.decrypt din) := by
  rw [decode_of_op_two rfl]
  simp [decodeX, reservedX_eq_zero_iff]

/-! ### The encoder, by the fields of the command -/

section Init
variable {i : Instr} {f : Family} {cfg : BitVec 4} {md : Mode} {key : Bytes} {iv ctr : Option Bytes}
  (h : commandFields i = .init f cfg md key iv ctr)
include h

theorem encode_init : encode i = initTransaction f cfg md key iv ctr := by simp [encode, h]

/-- An INIT command is the constructor of the row that its selectors name, applied to its operands. -/
theorem initRow_of_init : (initRow f cfg md).map (fun mk => mk key iv ctr) = some i := by
  cases i <;> cases h <;> rfl

/-- The transaction of an INIT decodes to that INIT (R82). -/
theorem decode_initTransaction : decode (initTransaction f cfg md key iv ctr) = .instr i := by
  obtain ⟨mk, hrow, rfl⟩ := Option.map_eq_some_iff.1 (initRow_of_init h)
  simp [initTransaction, decode_initWord hrow]

end Init

/-- Settles O9: the fields of the encoder's word are the codes of the command's selectors, and they name its row. -/
theorem decodeOfEncodeGivesCommand : Obligations.DecodeOfEncodeGivesCommand := by
  unfold Obligations.DecodeOfEncodeGivesCommand
  intro i
  rcases instr_cases i with ⟨f, cfg, md, key, iv, ctr, hi⟩ | ⟨din, rfl⟩ | ⟨din, rfl⟩
  · rw [encode_init hi]
    exact decode_initTransaction hi
  · exact decode_encryptWord [] [] [] din
  · exact decode_decryptWord [] [] [] din

/-- Settles O10: a word that decodes is composed of its fields, and the encoder composes those of the command. -/
theorem encodeOfDecodeGivesWord : Obligations.EncodeOfDecodeGivesWord := by
  unfold Obligations.EncodeOfDecodeGivesWord
  intro t i h
  rcases decode_eq_instr h with ⟨hop, hinit⟩ | ⟨hop, hX, rfl⟩ | ⟨hop, hX, rfl⟩
  · obtain ⟨hr, md, _, hmd, hi⟩ := decodeInit_eq_instr hinit
    rw [encode_init hi]
    simp [initTransaction, hmd, familyCode_familyOf, initWord_of_fields t.cmd hop hr]
  · exact BitVec.eq_of_toNat_eq (toNat_eq_of_formatX hop hX).symm
  · exact BitVec.eq_of_toNat_eq (toNat_eq_of_formatX hop hX).symm

/-- Settles O11, by the format that OP names and the outcomes of each format. -/
theorem decoderRejectsExactlyReservedWords : Obligations.DecoderRejectsExactlyReservedWords := by
  unfold Obligations.DecoderRejectsExactlyReservedWords
  intro t
  have hop : t.cmd.toNat % 4 = 0 ∨ t.cmd.toNat % 4 = 1 ∨ t.cmd.toNat % 4 = 2 ∨ t.cmd.toNat % 4 = 3 := by omega
  rcases hop with h | h | h | h
  · rw [decode_of_op_zero (opField_eq_iff.2 h)]
    rcases decodeInit_cases t with ⟨e, _⟩ | ⟨_, _, ⟨e, _⟩ | ⟨⟨i, e⟩, _⟩⟩ <;> simp [e] <;> omega
  · rw [decode_of_op_one (opField_eq_iff.2 h)]
    rcases decodeX_cases t.cmd (.encrypt t.din) with ⟨e, _⟩ | ⟨e, _⟩ <;> simp [e] <;> omega
  · rw [decode_of_op_two (opField_eq_iff.2 h)]
    rcases decodeX_cases t.cmd (.decrypt t.din) with ⟨e, _⟩ | ⟨e, _⟩ <;> simp [e] <;> omega
  · rw [decode_of_op_three (opField_eq_iff.2 h)]
    simp
    omega

/-! ### The selectors as literal numbers -/

theorem familyCode_toNat (f : Family) : (familyCode f).toNat = familyNumber f := by cases f <;> rfl

theorem modeCode_toNat (md : Mode) : (modeCode md).toNat = modeNumber md := by cases md <;> rfl

/-- Settles O57, by the number of the word that the encoder composes. -/
theorem encodedWordIsComposedOfSelectorNumbers : Obligations.EncodedWordIsComposedOfSelectorNumbers := by
  unfold Obligations.EncodedWordIsComposedOfSelectorNumbers
  refine ⟨fun i f cfg md key iv ctr hi => ?_, fun din => ⟨⟨rfl, rfl⟩, rfl, rfl⟩⟩
  rw [encode_init hi]
  refine ⟨?_, rfl, ?_, ?_⟩
  · rw [initTransaction, initWord_toNat, familyCode_toNat, modeCode_toNat, presenceBit_toNat, presenceBit_toNat]
  · rintro b rfl
    rfl
  · rintro b rfl
    rfl

/-- Settles O58, by the fields of the word and the literal numbers they hold. -/
theorem decodedCommandHasSelectorsOfWord : Obligations.DecodedCommandHasSelectorsOfWord := by
  unfold Obligations.DecodedCommandHasSelectorsOfWord
  intro t i h
  rcases decode_eq_instr h with ⟨hop, hinit⟩ | ⟨hop, hX, rfl⟩ | ⟨hop, hX, rfl⟩
  · obtain ⟨_, md, hm, _, hi⟩ := decodeInit_eq_instr hinit
    obtain ⟨_, hfam, hcfg, hmode, hivp, hctrp, _⟩ := field_numbers t.cmd
    simp only [hi, presentWhen_eq_ite, hivp, hctrp, and_true]
    exact ⟨opField_eq_iff.1 hop, hfam ▸ toNat_eq_familyNumber _, hcfg.symm, hmode ▸ toNat_eq_modeNumber hm⟩
  · exact ⟨toNat_eq_of_formatX hop hX, rfl⟩
  · exact ⟨toNat_eq_of_formatX hop hX, rfl⟩

/-- Settles O8: each INIT word is composed of the codes of its selectors, and the other two are the words of
format X. -/
theorem sampleWordsDecode : Obligations.SampleWordsDecode := by
  unfold Obligations.SampleWordsDecode
  intro key iv ctr din
  exact ⟨decode_initWord (f := .simon) (cfg := 0#4) (md := .ecb) rfl 0#1 0#1 key iv ctr din,
    decode_initWord (f := .speck) (cfg := 0#4) (md := .cbc) rfl 1#1 0#1 key iv ctr din,
    decode_initWord (f := .simon) (cfg := 9#4) (md := .ctr) rfl 0#1 1#1 key iv ctr din,
    decode_initWord (f := .speck) (cfg := 0#4) (md := .ctr) rfl 1#1 1#1 key iv ctr din,
    decode_initWord (f := .simon) (cfg := 0#4) (md := .cfb) rfl 1#1 0#1 key iv ctr din,
    decode_initWord (f := .speck) (cfg := 7#4) (md := .ofb) rfl 1#1 0#1 key iv ctr din,
    decode_encryptWord key iv ctr din, decode_decryptWord key iv ctr din⟩

/-! ### What a decoded command runs -/

/-- Settles O6: of the outcomes of a step, the one whose command decodes. -/
theorem stepRunsDecodedCommand : Obligations.StepRunsDecodedCommand := by
  unfold Obligations.StepRunsDecodedCommand
  exact fun _ _ _ _ hp hd => step_of_instr hp hd

/-- The chain operand of an INIT is decided by the operand its mode requires (R75, R76). -/
theorem initialChain_congr {md : Mode} {Bb : Nat} {iv ctr iv' ctr' : Option Bytes} (hctr : md = .ctr → ctr = ctr')
    (hiv : md = .cbc ∨ md = .cfb ∨ md = .ofb → iv = iv') :
    initialChain md Bb iv ctr = initialChain md Bb iv' ctr' := by
  cases md with
  | ecb => rfl
  | ctr => rw [hctr rfl]; rfl
  | cbc | cfb | ofb => rw [hiv (by simp)]; rfl

/-- Settles O25: INIT reads its chain operands through `initialChain` alone. -/
theorem surplusChainOperandIgnored : Obligations.SurplusChainOperandIgnored := by
  unfold Obligations.SurplusChainOperandIgnored
  intro i j f cfg md key iv ctr iv' ctr' s hi hj hctr hiv
  have hchain (Bb : Nat) : initialChain md Bb iv ctr = initialChain md Bb iv' ctr' := initialChain_congr hctr hiv
  rw [exec_init hi, exec_init hj]
  simp only [initContext, hchain]

end Sys2Proof

/-! PROOFS. The word operations bit by bit and as numbers, and the statements of 40_word_arithmetic.md. A left rotation
is a right one by the complementary amount, so the laws of rotation follow from how right rotations compose. -/

namespace Sys2Proof.Machine

/-! ### The rotations, bit by bit -/

/-- Below the amount the bits come round from the top of the word, above it they move up (R91). -/
theorem getLsbD_rotl {n : Nat} (w : Word n) (r : Nat) {i : Nat} (hi : i < n) :
    (rotl w r).getLsbD i = w.getLsbD ((i + (n - r % n)) % n) := by
  have hr : r % n < n := Nat.mod_lt r (by omega)
  rw [rotl_eq_rotateLeft, BitVec.getLsbD_rotateLeft]
  by_cases h : i < r % n
  · have hidx : (i + (n - r % n)) % n = n - r % n + i := by rw [Nat.mod_eq_of_lt (by omega), Nat.add_comm]
    simp [h, hidx]
  · have hidx : (i + (n - r % n)) % n = i - r % n := by
      rw [show i + (n - r % n) = i - r % n + n by omega, Nat.add_mod_right, Nat.mod_eq_of_lt (by omega)]
    simp [h, hi, hidx]

/-- Bits move down until the top `r mod n` places, which the low bits of the word fill (R92). -/
theorem getLsbD_rotr {n : Nat} (w : Word n) (r : Nat) {i : Nat} (hi : i < n) :
    (rotr w r).getLsbD i = w.getLsbD ((i + r % n) % n) := by
  have hr : r % n < n := Nat.mod_lt r (by omega)
  rw [rotr_eq_rotateRight, BitVec.getLsbD_rotateRight]
  by_cases h : i < n - r % n
  · have hidx : (i + r % n) % n = r % n + i := by rw [Nat.mod_eq_of_lt (by omega), Nat.add_comm]
    simp [h, hidx]
  · have hidx : (i + r % n) % n = i - (n - r % n) := by
      rw [show i + r % n = i - (n - r % n) + n by omega, Nat.add_mod_right, Nat.mod_eq_of_lt (by omega)]
    simp [h, hi, hidx]

/-- Settles O39, by the two halves of the rotated word. -/
theorem rotateLeftMovesBits : Obligations.RotateLeftMovesBits := by
  unfold Obligations.RotateLeftMovesBits
  exact fun _ w r _ hi => getLsbD_rotl w r hi

/-- Settles O40, by the two halves of the rotated word. -/
theorem rotateRightMovesBits : Obligations.RotateRightMovesBits := by
  unfold Obligations.RotateRightMovesBits
  exact fun _ w r _ hi => getLsbD_rotr w r hi

/-! ### The laws of rotation (R98, laws 2 to 4) -/

section Rotation
variable {n : Nat} (w : Word n) (r s : Nat)

theorem rotl_mod : rotl w (r % n) = rotl w r := by simp [rotl_eq_rotateLeft]

theorem rotr_mod : rotr w (r % n) = rotr w r := by simp [rotr_eq_rotateRight]

theorem rotl_eq_rotr : rotl w r = rotr w (n - r % n) := by
  refine BitVec.eq_of_getLsbD_eq fun i hi => ?_
  rw [getLsbD_rotl w r hi, getLsbD_rotr w _ hi, Nat.add_mod_mod]

theorem rotr_rotr : rotr (rotr w r) s = rotr w (r + s) := by
  refine BitVec.eq_of_getLsbD_eq fun i hi => ?_
  have hj : (i + s % n) % n < n := Nat.mod_lt _ (by omega)
  rw [getLsbD_rotr _ s hi, getLsbD_rotr w r hj, getLsbD_rotr w (r + s) hi, Nat.add_mod_mod, Nat.add_mod_mod,
    Nat.add_mod_mod, Nat.mod_add_mod, Nat.add_assoc, Nat.add_comm s r]

/-- An amount and its complement make whole turns. -/
theorem rotr_add_complement : rotr w (r + (n - r % n)) = w := by
  refine BitVec.eq_of_getLsbD_eq fun i hi => ?_
  have hr : r % n < n := Nat.mod_lt r (by omega)
  have hturn : (r + (n - r % n)) % n = 0 := by
    rw [← Nat.mod_add_mod, Nat.add_sub_cancel' hr.le, Nat.mod_self]
  rw [getLsbD_rotr w _ hi, hturn, Nat.add_zero, Nat.mod_eq_of_lt hi]

@[simp] theorem rotl_rotr : rotl (rotr w r) r = w := by
  rw [rotl_eq_rotr, rotr_rotr, rotr_add_complement]

@[simp] theorem rotr_rotl : rotr (rotl w r) r = w := by
  rw [rotl_eq_rotr, rotr_rotr, Nat.add_comm, rotr_add_complement]

theorem rotr_eq_rotl : rotr w r = rotl w (n - r % n) :=
  calc rotr w r = rotl (rotr (rotr w r) (n - r % n)) (n - r % n) := (rotl_rotr _ _).symm
    _ = rotl w (n - r % n) := by rw [rotr_rotr, rotr_add_complement]

/-- Undoing both rotations in turn undoes the rotation by the sum. -/
theorem rotl_rotl : rotl (rotl w r) s = rotl w (r + s) := by
  have hundo : rotr (rotl (rotl w r) s) (r + s) = w := by
    rw [Nat.add_comm, ← rotr_rotr, rotr_rotl, rotr_rotl]
  calc rotl (rotl w r) s = rotl (rotr (rotl (rotl w r) s) (r + s)) (r + s) := (rotl_rotr _ _).symm
    _ = rotl w (r + s) := by rw [hundo]

end Rotation

/-! ### Rotations and the bitwise operations (R98, law 5) -/

section Bitwise
variable {n : Nat} (a b : Word n) (r : Nat)

theorem rotr_xorW : rotr (xorW a b) r = xorW (rotr a r) (rotr b r) := by
  refine BitVec.eq_of_getLsbD_eq fun i hi => ?_
  simp [xorW, getLsbD_rotr _ r hi]

theorem rotr_andW : rotr (andW a b) r = andW (rotr a r) (rotr b r) := by
  refine BitVec.eq_of_getLsbD_eq fun i hi => ?_
  simp [andW, getLsbD_rotr _ r hi]

theorem rotl_xorW : rotl (xorW a b) r = xorW (rotl a r) (rotl b r) := by
  simp only [rotl_eq_rotr, rotr_xorW]

theorem rotl_andW : rotl (andW a b) r = andW (rotl a r) (rotl b r) := by
  simp only [rotl_eq_rotr, rotr_andW]

@[simp] theorem xorW_xorW_cancel_right : xorW (xorW a b) b = a := by
  simp [xorW]

end Bitwise

/-- The carry out of the top bit is lost before the rotation, but enters bit 1 after it. -/
theorem rotl_addW_ne_addW_rotl :
    rotl (addW 0x8000#16 0x8000#16) 1 ≠ addW (rotl 0x8000#16 1) (rotl 0x8000#16 1) := by
  decide

/-! ### Addition and subtraction (R98, laws 6 and 7) -/

section Arithmetic
variable {n : Nat} (a b d : Word n)

theorem addW_toNat : (addW a b).toNat = (a.toNat + b.toNat) &&& maskNat n := by
  rw [addW, BitVec.toNat_add, maskNat, Nat.and_two_pow_sub_one_eq_mod]

theorem subW_toNat : (subW a b).toNat = (a.toNat + 2 ^ n - b.toNat) &&& maskNat n := by
  have hcomm : 2 ^ n - b.toNat + a.toNat = a.toNat + 2 ^ n - b.toNat := by
    rw [Nat.add_comm, Nat.add_sub_assoc b.isLt.le]
  rw [subW, BitVec.toNat_sub, hcomm, maskNat, Nat.and_two_pow_sub_one_eq_mod]

@[simp] theorem subW_addW_cancel_right : subW (addW a b) b = a := BitVec.add_sub_cancel a b

@[simp] theorem addW_subW_cancel_right : addW (subW a b) b = a := BitVec.sub_add_cancel a b

theorem addW_comm : addW a b = addW b a := BitVec.add_comm a b

theorem addW_assoc : addW (addW a b) d = addW a (addW b d) := BitVec.add_assoc a b d

end Arithmetic

/-- Settles O41: masking by `mask(n)` is the remainder by `2^n`. -/
theorem addAndSubWrap : Obligations.AddAndSubWrap := by
  unfold Obligations.AddAndSubWrap
  exact fun _ a b => ⟨addW_toNat a b, subW_toNat a b⟩

/-- Settles O42: the laws in the order of R98; rotation and addition part at `0x8000 + 0x8000`. -/
theorem wordLaws : Obligations.WordLaws := by
  unfold Obligations.WordLaws
  refine ⟨fun n a b d w r s => ?_, _, _, _, rotl_addW_ne_addW_rotl⟩
  exact ⟨⟨BitVec.isLt _, BitVec.isLt _, BitVec.isLt _, BitVec.isLt _, BitVec.isLt _, BitVec.isLt _⟩,
    ⟨rotr_rotl w r, rotl_rotr w r, rotr_eq_rotl w r⟩,
    ⟨(rotl_mod w r).symm, (rotr_mod w r).symm⟩,
    rotl_rotl w r s,
    ⟨rotl_xorW a b r, rotl_andW a b r, rotr_xorW a b r, rotr_andW a b r⟩,
    ⟨subW_addW_cancel_right a b, addW_subW_cancel_right a b⟩,
    ⟨addW_comm a b, addW_assoc a b d⟩,
    xorW_xorW_cancel_right a b⟩

end Sys2Proof.Machine

/-! PROOFS. The lookup RESOLVE over all sixteen values of CFG, and the statement of 41_config_table.md. It fails alike in
both families, from CFG 10 on (R132), so only the ten published rows of each family are left to compute. -/

namespace Sys2Proof.Machine

/-- The ten published pairs are those of CFG 0 to 9 (R132). -/
theorem pairOf_eq_none_iff {cfg : BitVec 4} : pairOf cfg = none ↔ 10 ≤ cfg.toNat := by
  unfold pairOf
  split
  case h_11 => exact iff_of_true rfl (by grind)
  all_goals simp only [reduceCtorEq, false_iff]; omega

/-- RESOLVE has no failure but the pair's (R132). -/
theorem resolve_eq_none_iff {f : Family} {cfg : BitVec 4} : resolve f cfg = none ↔ 10 ≤ cfg.toNat := by
  rw [← pairOf_eq_none_iff]
  cases h : pairOf cfg <;> simp [resolve, h]

theorem map_resolve_range_sixteen (f : Family) :
    (List.range 16).map (fun i => resolve f (BitVec.ofNat 4 i)) =
      (List.range 10).map (fun i => resolve f (BitVec.ofNat 4 i)) ++ List.replicate 6 none := by
  have hfail : ∀ j < 6, resolve f (BitVec.ofNat 4 (10 + j)) = none := fun j hj =>
    resolve_eq_none_iff.2 (by rw [BitVec.toNat_ofNat]; omega)
  rw [List.range_add (n := 10) (m := 6), List.map_append, List.map_map]
  exact congrArg _ (List.map_eq_replicate_iff.2 fun j hj => hfail j (List.mem_range.1 hj))

/-- Settles O47: beyond the six failures, which need no computation, the ten rows of each family by evaluation. -/
theorem configurationTableRows : Obligations.ConfigurationTableRows := by
  unfold Obligations.ConfigurationTableRows
  rw [map_resolve_range_sixteen .simon, map_resolve_range_sixteen .speck]
  exact ⟨by decide, by decide⟩

end Sys2Proof.Machine

/-! PROOFS. The two key schedules as sequences, and the statements of 42_key_schedule.md. A schedule only appends, so
a word read at one step is the same word in the finished sequence; each step's equation thereby becomes the recurrence. -/

namespace Sys2Proof.Machine

/-! ### The schedules only append -/

theorem getD_of_isPrefix {α : Type} {k k' : List α} (h : k <+: k') {j : Nat} (hj : j < k.length) (d : α) :
    k'.getD j d = k.getD j d := by
  obtain ⟨tail, rfl⟩ := h
  exact List.getD_append k tail d j hj

/-- The entry at which one more was appended, read in a list that goes on from there. -/
theorem getD_of_concat_isPrefix {α : Type} {k k' : List α} {a : α} (h : k ++ [a] <+: k') (d : α) :
    k'.getD k.length d = a := by
  rw [getD_of_isPrefix h (by simp), List.getD_append_right _ _ _ _ le_rfl, Nat.sub_self, List.getD_cons_zero]

theorem isPrefix_simonExtend {n : Nat} (m zid : Nat) :
    ∀ (count : Nat) (k : List (Word n)), k <+: simonExtend m zid count k
  | 0, k => List.prefix_refl k
  | count + 1, k => (List.prefix_append k _).trans (isPrefix_simonExtend m zid count _)

theorem isPrefix_speckExtend {n : Nat} (alpha beta : Nat) :
    ∀ (count i : Nat) (L k : List (Word n)),
      L <+: (speckExtend alpha beta count i L k).1 ∧ k <+: (speckExtend alpha beta count i L k).2
  | 0, _, L, k => ⟨List.prefix_refl L, List.prefix_refl k⟩
  | count + 1, i, L, k => by
    obtain ⟨hL, hk⟩ := isPrefix_speckExtend alpha beta count (i + 1)
      (L ++ [(speckRF alpha beta (L.getD i 0, k.getD i 0) (BitVec.ofNat n i)).1])
      (k ++ [(speckRF alpha beta (L.getD i 0, k.getD i 0) (BitVec.ofNat n i)).2])
    exact ⟨(List.prefix_append L _).trans hL, (List.prefix_append k _).trans hk⟩

/-! ### KS_SIMON -/

/-- The next Simon subkey with the extra term of `m = 4` as one exclusive-or more (R144 to R147). -/
theorem simonNext_eq {n : Nat} (m zid i : Nat) (k : List (Word n)) :
    simonNext m zid i k =
      let t := rotr (k.getD (i - 1) 0#n) 3 ^^^ (if m = 4 then k.getD (i - 3) 0#n else 0#n)
      (mask n ^^^ 3#n) ^^^ BitVec.ofNat n (zBit zid ((i - m) % 62)) ^^^ k.getD (i - m) 0#n ^^^ (t ^^^ rotr t 1) := by
  by_cases hm : m = 4 <;> simp [simonNext, simonConst, xorW, hm]

/-- The next subkey is computed from subkeys before it, so what follows them does not matter. -/
theorem simonNext_of_isPrefix {n m : Nat} (zid : Nat) (hm : 0 < m) {k k' : List (Word n)} (h : k <+: k')
    (hk : 0 < k.length) : simonNext m zid k.length k' = simonNext m zid k.length k := by
  have hback : ∀ r, 0 < r → k'.getD (k.length - r) 0#n = k.getD (k.length - r) 0#n :=
    fun r hr => getD_of_isPrefix h (by omega) _
  rw [simonNext_eq, simonNext_eq, hback 1 Nat.one_pos, hback 3 (by omega), hback m hm]

/-- Every subkey the schedule adds is the next one of those before it, also when read from the finished schedule. -/
theorem simonExtend_getD {n m : Nat} (zid : Nat) (hm : 0 < m) :
    ∀ (count : Nat) (k : List (Word n)), 0 < k.length → ∀ i, k.length ≤ i → i < k.length + count →
      (simonExtend m zid count k).getD i 0#n = simonNext m zid i (simonExtend m zid count k)
  | 0, _, _, i, hle, hlt => by omega
  | count + 1, k, hk, i, hle, hlt => by
    have hpre := isPrefix_simonExtend m zid count (k ++ [simonNext m zid k.length k])
    have hlen : (k ++ [simonNext m zid k.length k]).length = k.length + 1 := by simp
    rw [simonExtend]
    obtain rfl | hgt := Nat.eq_or_lt_of_le hle
    · calc (simonExtend m zid count (k ++ [simonNext m zid k.length k])).getD k.length 0#n
          = simonNext m zid k.length k := getD_of_concat_isPrefix hpre _
        _ = _ := (simonNext_of_isPrefix zid hm ((List.prefix_append _ _).trans hpre) hk).symm
    · exact simonExtend_getD zid hm count _ (by omega) i (by omega) (by omega)

/-- Settles O48: a step's equation reads the finished schedule, for the schedule only appends. -/
theorem simonScheduleRecurrence : Obligations.SimonScheduleRecurrence := by
  unfold Obligations.SimonScheduleRecurrence
  rintro n m T zid kw hm - hT rfl
  refine ⟨?_, fun j hj => getD_of_isPrefix (isPrefix_simonExtend _ _ _ _) hj _, fun i hi hiT => ?_⟩
  · rw [ksSimon, simonExtend_length]; omega
  · exact (simonExtend_getD zid (by omega) _ kw (by omega) i hi (by omega)).trans (simonNext_eq _ _ _ _)

/-! ### KS_SPECK -/

/-- Step `j` of the Speck schedule, read in the finished sequences: the round word it makes stands `d` places on,
where `d` is the number of round words in hand. -/
theorem speckExtend_getD {n : Nat} (alpha beta : Nat) {d : Nat} (hd : 0 < d) :
    ∀ (count i : Nat) (L k : List (Word n)), L.length = i + d → k.length = i + 1 →
      ∀ L' k', speckExtend alpha beta count i L k = (L', k') → ∀ j, i ≤ j → j < i + count →
        (L'.getD (j + d) 0#n, k'.getD (j + 1) 0#n) =
          speckRF alpha beta (L'.getD j 0#n, k'.getD j 0#n) (BitVec.ofNat n j)
  | 0, i, _, _, _, _, _, _, _, j, hle, hlt => by omega
  | count + 1, i, L, k, hL, hk, L', k', h, j, hle, hlt => by
    rw [speckExtend] at h
    obtain rfl | hgt := Nat.eq_or_lt_of_le hle
    · obtain ⟨hpreL, hprek⟩ := h ▸ isPrefix_speckExtend alpha beta count (i + 1) _ _
      have hreadL := getD_of_isPrefix ((List.prefix_append L _).trans hpreL) (j := i) (by omega) 0#n
      have hreadk := getD_of_isPrefix ((List.prefix_append k _).trans hprek) (j := i) (by omega) 0#n
      rw [hreadL, hreadk, ← hL, ← hk]
      exact Prod.ext (getD_of_concat_isPrefix hpreL _) (getD_of_concat_isPrefix hprek _)
    · exact speckExtend_getD alpha beta hd count (i + 1) _ _ (by simp; omega) (by simp; omega) L' k' h j hgt
        (by omega)

/-- Settles O49: the sequence `L` is the one the schedule carries beside the subkeys. -/
theorem speckScheduleRecurrence : Obligations.SpeckScheduleRecurrence := by
  unfold Obligations.SpeckScheduleRecurrence
  rintro n m T alpha beta kw hm hT rfl
  obtain ⟨hlenL, hlenk⟩ := speckExtend_length alpha beta (T - 1) 0 (kw.drop 1) (kw.take 1)
  obtain ⟨hpreL, hprek⟩ := isPrefix_speckExtend alpha beta (T - 1) 0 (kw.drop 1) (kw.take 1)
  have htake : (kw.take 1).length = 1 := by rw [List.length_take]; omega
  have hdrop : (kw.drop 1).length = 0 + (kw.length - 1) := by rw [List.length_drop]; omega
  refine ⟨?_, (speckExtend alpha beta (T - 1) 0 (kw.drop 1) (kw.take 1)).1, ?_, ?_, fun j hj => ?_, fun i hi => ?_⟩
  · rw [ksSpeck]; omega
  · omega
  · exact (getD_of_isPrefix hprek (by omega) _).trans (getD_of_isPrefix (List.take_prefix 1 kw) (by omega) _).symm
  · rw [getD_of_isPrefix hpreL (by omega)]
    simp
  · have hstep := speckExtend_getD alpha beta (by omega) (T - 1) 0 _ _ hdrop htake _ _ rfl i (by omega) (by omega)
    rw [← Nat.add_sub_assoc (by omega)] at hstep
    obtain ⟨hround, hmain⟩ := Prod.mk.inj hstep
    exact ⟨hround, hmain.trans (congrArg (xorW _) hround.symm)⟩

/-! ### The schedule of a configuration -/

/-- The parameters of a row are those of its family (R134). -/
theorem resolve_params {f : Family} {cfg : BitVec 4} {c : Configuration} (h : resolve f cfg = some c) :
    c.params = (rowOf f cfg c.n).2 := by
  obtain ⟨K, B, -, rfl⟩ := resolve_eq_some_iff.1 h
  rfl

theorem keySchedule_of_simon {c : Configuration} {zid : Nat} (h : c.params = .simon zid) (kw : List (Word c.n)) :
    keySchedule c kw = ksSimon c.m c.T zid kw := by
  rw [keySchedule, h]

theorem keySchedule_of_speck {c : Configuration} {alpha beta : Nat} (h : c.params = .speck alpha beta)
    (kw : List (Word c.n)) : keySchedule c kw = ksSpeck c.T alpha beta kw := by
  rw [keySchedule, h]

/-- Settles O60: the row's parameters name the family's schedule, which has its recurrence. -/
theorem keyScheduleRunsFamilyRecurrence : Obligations.KeyScheduleRunsFamilyRecurrence := by
  unfold Obligations.KeyScheduleRunsFamilyRecurrence
  intro f cfg c kw h hkw
  have hm := resolve_m_ge h
  have hT := resolve_m_lt_T h
  refine ⟨keySchedule_length h hkw, ?_⟩
  cases f with
  | simon =>
    have hks := keySchedule_of_simon (resolve_params h) kw
    rw [hks]
    exact ⟨_, resolve_params h, rfl, (simonScheduleRecurrence _ _ _ _ kw hm (resolve_m_le h) hT hkw).2⟩
  | speck =>
    have hks := keySchedule_of_speck (resolve_params h) kw
    rw [hks]
    exact ⟨_, _, resolve_params h, rfl, (speckScheduleRecurrence _ _ _ _ _ kw hm (by omega) hkw).2⟩

/-! ### The z sequences -/

/-- Settles O50, by evaluation: the 310 bits of the five numbers are the characters of the strings. -/
theorem zSequences : Obligations.ZSequences := by
  unfold Obligations.ZSequences
  decide

end Sys2Proof.Machine

/-! PROOFS. The rounds bit by bit, their inverses, the rounds as the iteration that E and D run, and the statements of
43_round_transform.md. Both families are one argument: a round, an inverse round that undoes it, and a run of the
first over the subkeys that a run of the second over the reversed subkeys takes back. -/

namespace Sys2Proof.Machine

/-! ### The rounds, bit by bit and as numbers -/

section Rounds
variable {n : Nat}

theorem getLsbD_xorW (a b : Word n) (i : Nat) : (xorW a b).getLsbD i = (a.getLsbD i ^^ b.getLsbD i) :=
  BitVec.getLsbD_xor

theorem getLsbD_andW (a b : Word n) (i : Nat) : (andW a b).getLsbD i = (a.getLsbD i && b.getLsbD i) :=
  BitVec.getLsbD_and

theorem xorW_right_comm (a b d : Word n) : xorW (xorW a b) d = xorW (xorW a d) b := by
  simp only [xorW, BitVec.xor_assoc, BitVec.xor_comm b d]

variable (alpha beta : Nat) (p : Word n × Word n) (k : Word n)

theorem speckRF_fst : (speckRF alpha beta p k).1 = xorW (addW (rotr p.1 alpha) p.2) k := rfl

/-- `y'` reads the new `x` (R165). -/
theorem speckRF_snd : (speckRF alpha beta p k).2 = xorW (rotl p.2 beta) (speckRF alpha beta p k).1 := rfl

/-- `x` reads the recovered `y` (R166). -/
theorem speckRI_fst :
    (speckRI alpha beta p k).1 = rotl (subW (xorW p.1 k) (speckRI alpha beta p k).2) alpha := rfl

theorem speckRI_snd : (speckRI alpha beta p k).2 = rotr (xorW p.2 p.1) beta := rfl

end Rounds

/-- Settles O51: the rotations are read bit by bit; the round's equations are those of its definition. -/
theorem simonRoundBitByBit : Obligations.SimonRoundBitByBit := by
  unfold Obligations.SimonRoundBitByBit
  refine fun n x y k => ⟨fun i hi => ?_, rfl, fun i _ => ?_⟩
  · rw [simonF, getLsbD_xorW, getLsbD_andW, getLsbD_rotl x 1 hi, getLsbD_rotl x 8 hi, getLsbD_rotl x 2 hi]
  · rw [simonRF, getLsbD_xorW, getLsbD_xorW]

/-- Settles O52: the sum drops its carry, and `y'` reads the new `x`. -/
theorem speckRoundOnNumbers : Obligations.SpeckRoundOnNumbers := by
  unfold Obligations.SpeckRoundOnNumbers
  refine fun n alpha beta x y k => ⟨?_, fun i hi => ?_⟩
  · rw [speckRF_fst, xorW, addW, BitVec.toNat_xor, BitVec.toNat_add]
  · rw [speckRF_snd, getLsbD_xorW, getLsbD_rotl y beta hi]

/-! ### The inverse rounds -/

section Inverse
variable {n : Nat} (p : Word n × Word n) (k : Word n)

theorem simonRI_eq_swap : simonRI p k = (simonRF p.swap k).swap := rfl

/-- The round masks one word by `f` of the other and by `k`; the inverse masks it by both again (R162). -/
theorem simonRI_simonRF : simonRI (simonRF p k) k = p := by
  have hmask : xorW (xorW (xorW (xorW p.2 (simonF p.1)) k) (simonF p.1)) k = p.2 := by
    rw [xorW_right_comm _ k, xorW_xorW_cancel_right, xorW_xorW_cancel_right]
  exact Prod.ext rfl hmask

/-- The other direction is the same fact about the exchanged pair. -/
theorem simonRF_simonRI : simonRF (simonRI p k) k = p :=
  congrArg Prod.swap (simonRI_simonRF p.swap k)

variable (alpha beta : Nat)

/-- The mask cancels and the rotation turns back, first for `y` and with it for `x` (R98, laws 2, 6 and 8). -/
theorem speckRI_speckRF : speckRI alpha beta (speckRF alpha beta p k) k = p := by
  have hy : (speckRI alpha beta (speckRF alpha beta p k) k).2 = p.2 := by
    rw [speckRI_snd, speckRF_snd, xorW_xorW_cancel_right, rotr_rotl]
  have hx : (speckRI alpha beta (speckRF alpha beta p k) k).1 = p.1 := by
    rw [speckRI_fst, hy, speckRF_fst, xorW_xorW_cancel_right, subW_addW_cancel_right, rotl_rotr]
  exact Prod.ext hx hy

/-- The round first restores the masked sum, which is the new `x` that `y` is masked by. -/
theorem speckRF_speckRI : speckRF alpha beta (speckRI alpha beta p k) k = p := by
  have hx : (speckRF alpha beta (speckRI alpha beta p k) k).1 = p.1 := by
    rw [speckRF_fst, speckRI_fst, rotr_rotl, addW_subW_cancel_right, xorW_xorW_cancel_right]
  have hy : (speckRF alpha beta (speckRI alpha beta p k) k).2 = p.2 := by
    rw [speckRF_snd, hx, speckRI_snd, rotl_rotr, xorW_xorW_cancel_right]
  exact Prod.ext hx hy

end Inverse

/-- Settles O54, by the two inverses and the form of R162. -/
theorem simonRoundsInvert : Obligations.SimonRoundsInvert := by
  unfold Obligations.SimonRoundsInvert
  exact fun _ p k => ⟨simonRI_simonRF p k, simonRF_simonRI p k, simonRI_eq_swap p k⟩

/-- Settles O55, by the two inverses and the equations of R166. -/
theorem speckRoundsInvert : Obligations.SpeckRoundsInvert := by
  unfold Obligations.SpeckRoundsInvert
  exact fun _ alpha beta p k =>
    ⟨speckRI_snd alpha beta p k, speckRI_fst alpha beta p k, speckRI_speckRF p k alpha beta, speckRF_speckRI p k alpha beta⟩

/-! ### The round of a family, and the entry points as its iteration -/

/-- The forward round that the parameters name (R161, R165). -/
def roundF {n : Nat} (params : FamilyParams) (p : Word n × Word n) (k : Word n) : Word n × Word n :=
  match params with
  | .simon _ => simonRF p k
  | .speck alpha beta => speckRF alpha beta p k

/-- The inverse round that the parameters name (R162, R166). -/
def roundI {n : Nat} (params : FamilyParams) (p : Word n × Word n) (k : Word n) : Word n × Word n :=
  match params with
  | .simon _ => simonRI p k
  | .speck alpha beta => speckRI alpha beta p k

section Entry
variable {n : Nat} (params : FamilyParams)

theorem roundI_roundF (p : Word n × Word n) (k : Word n) : roundI params (roundF params p k) k = p := by
  cases params with
  | simon _ => exact simonRI_simonRF p k
  | speck alpha beta => exact speckRI_speckRF p k alpha beta

theorem roundF_roundI (p : Word n × Word n) (k : Word n) : roundF params (roundI params p k) k = p := by
  cases params with
  | simon _ => exact simonRF_simonRI p k
  | speck alpha beta => exact speckRF_speckRI p k alpha beta

theorem encEntry_eq_foldl (ks : List (Word n)) (p : Word n × Word n) :
    encEntry params ks p = ks.foldl (roundF params) p := by
  cases params <;> rfl

theorem decEntry_eq_foldl (ks : List (Word n)) (p : Word n × Word n) :
    decEntry params ks p = ks.reverse.foldl (roundI params) p := by
  cases params <;> rfl

end Entry

/-! ### Runs over the subkeys -/

section Runs
variable {α β : Type} {f g : β → α → β}

/-- A run that takes the last step back first undoes the run, when each step undoes its own. -/
theorem foldl_reverse_foldl (h : ∀ b a, g (f b a) a = b) (as : List α) (b : β) :
    as.reverse.foldl g (as.foldl f b) = b := by
  induction as generalizing b with
  | nil => rfl
  | cons a as ih => rw [List.reverse_cons, List.foldl_concat, List.foldl_cons, ih, h]

theorem foldl_foldl_reverse (h : ∀ b a, f (g b a) a = b) (as : List α) (b : β) :
    as.foldl f (as.reverse.foldl g b) = b := by
  simpa using foldl_reverse_foldl h as.reverse b

end Runs

theorem decEntry_encEntry {n : Nat} (params : FamilyParams) (ks : List (Word n)) (p : Word n × Word n) :
    decEntry params ks (encEntry params ks p) = p := by
  rw [decEntry_eq_foldl, encEntry_eq_foldl, foldl_reverse_foldl (roundI_roundF params)]

theorem encEntry_decEntry {n : Nat} (params : FamilyParams) (ks : List (Word n)) (p : Word n × Word n) :
    encEntry params ks (decEntry params ks p) = p := by
  rw [decEntry_eq_foldl, encEntry_eq_foldl, foldl_foldl_reverse (roundF_roundI params)]

/-! ### The pair between two rounds -/

/-- The pair that `ENC_ENTRY` holds before round `i`: the first `i` subkeys are used. -/
def encPair {n : Nat} (params : FamilyParams) (ks : List (Word n)) (p : Word n × Word n) (i : Nat) : Word n × Word n :=
  (ks.take i).foldl (roundF params) p

/-- The pair that `DEC_ENTRY` holds when the rounds below `i` are left to undo. -/
def decPair {n : Nat} (params : FamilyParams) (ks : List (Word n)) (p : Word n × Word n) (i : Nat) : Word n × Word n :=
  (ks.drop i).reverse.foldl (roundI params) p

section Pairs
variable {n : Nat} (params : FamilyParams) (ks : List (Word n)) (p : Word n × Word n)

theorem encPair_zero : encPair params ks p 0 = p := rfl

theorem encPair_length : encPair params ks p ks.length = encEntry params ks p := by
  rw [encPair, List.take_length, encEntry_eq_foldl]

theorem encPair_succ {i : Nat} (h : i < ks.length) :
    encPair params ks p (i + 1) = roundF params (encPair params ks p i) ks[i] := by
  rw [encPair, List.take_succ_eq_append_getElem h, List.foldl_concat, encPair]

theorem decPair_length : decPair params ks p ks.length = p := by
  rw [decPair, List.drop_length, List.reverse_nil, List.foldl_nil]

theorem decPair_zero : decPair params ks p 0 = decEntry params ks p := by
  rw [decPair, List.drop_zero, decEntry_eq_foldl]

theorem decPair_eq_roundI {i : Nat} (h : i < ks.length) :
    decPair params ks p i = roundI params (decPair params ks p (i + 1)) ks[i] := by
  rw [decPair, List.drop_eq_getElem_cons h, List.reverse_cons, List.foldl_concat, decPair]

end Pairs

/-- Settles O53, by the pairs between the rounds of `E` and of `D`. -/
theorem transformsRunRoundsInOrder : Obligations.TransformsRunRoundsInOrder := by
  unfold Obligations.TransformsRunRoundsInOrder
  intro c ks b
  refine ⟨⟨encPair c.params ks (blockToWords c.n b), encPair_zero _ _ _, ?_, fun i h => encPair_succ _ _ _ h⟩,
    ⟨decPair c.params ks (blockToWords c.n b), decPair_length _ _ _, ?_, fun i h => decPair_eq_roundI _ _ _ h⟩⟩
  · rw [blockE, encPair_length]
  · rw [blockD, decPair_zero]

/-! ### The single-block transforms -/

section Blocks
variable {f : Family} {cfg : BitVec 4} {c : Configuration} (h : resolve f cfg = some c) (ks : List (Word c.n))
  {b : Bytes} (hb : b.length = c.Bb)
include h hb

theorem wordsToBlock_blockToWords_of_resolve : wordsToBlock (blockToWords c.n b) = b :=
  wordsToBlock_blockToWords (resolve_n_mod h) (by have := resolve_block h; omega)

theorem blockD_blockE : blockD c ks (blockE c ks b) = b := by
  rw [blockD, blockE, blockToWords_wordsToBlock (resolve_n_mod h), decEntry_encEntry,
    wordsToBlock_blockToWords_of_resolve h hb]

theorem blockE_blockD : blockE c ks (blockD c ks b) = b := by
  rw [blockD, blockE, blockToWords_wordsToBlock (resolve_n_mod h), encEntry_decEntry,
    wordsToBlock_blockToWords_of_resolve h hb]

end Blocks

/-- Settles O56: a block is a pair of words, on which the inverse rounds take back the rounds one by one. -/
theorem singleBlockTransformsInvert : Obligations.SingleBlockTransformsInvert := by
  unfold Obligations.SingleBlockTransformsInvert
  exact fun _ _ _ ks b h hb =>
    ⟨blockD_blockE h ks hb, blockE_blockD h ks hb, blockE_length h ks b, blockD_length h ks b⟩

end Sys2Proof.Machine

/-! PROOFS. Big-endian numbers, the exclusive-or of byte strings, and byte strings by their blocks: what the statements
of 44_mode_layer.md need before the block loop. Byte strings of one length are told apart by their big-endian numbers,
and messages of whole blocks by their blocks. -/

namespace Sys2Proof.Machine

/-! ### Big-endian numbers -/

theorem beNat_lt (s : Bytes) : beNat s < 256 ^ s.length := by simpa [beNat] using leNat_lt s.reverse

/-- Byte strings of one length are told apart by their big-endian numbers. -/
theorem beNat_inj {s t : Bytes} (hlen : s.length = t.length) (h : beNat s = beNat t) : s = t :=
  List.reverse_injective (leNat_inj (by simpa using hlen) h)

theorem beNat_concat (s : Bytes) (b : Byte) : beNat (s ++ [b]) = b.toNat + 256 * beNat s := by simp [beNat, leNat]

theorem natToBe_reverse (len v : Nat) :
    (natToBe len v).reverse = (List.range len).map fun k => BitVec.ofNat 8 (v >>> (8 * k)) := by
  refine List.ext_getElem (by simp) fun k _ hk => ?_
  have hlt : k < len := by simpa using hk
  simp [natToBe, show len - 1 - (len - 1 - k) = k by omega]

/-- The bytes of `natToBe` are those of a word that holds the number. -/
theorem beNat_natToBe (len v : Nat) : beNat (natToBe len v) = v % 256 ^ len := by
  rw [beNat, natToBe_reverse]
  exact leNat_map_extractLsb' (BitVec.ofNatLT v Nat.lt_two_pow_self) len

theorem natToBe_beNat (s : Bytes) : natToBe s.length (beNat s) = s :=
  beNat_inj (by simp) (by rw [beNat_natToBe, Nat.mod_eq_of_lt (beNat_lt s)])

/-! ### INC_BE -/

theorem beNat_incBe (s : Bytes) : beNat (incBe s) = (beNat s + 1) % 256 ^ s.length := by
  rw [incBe, beNat_natToBe, Nat.mod_mod]

/-- A last byte below `ff` takes the increment, without a carry. -/
theorem incBe_concat {b : Byte} (hb : b ≠ 0xff#8) (s : Bytes) : incBe (s ++ [b]) = s ++ [b + 1#8] := by
  refine beNat_inj (by simp) ?_
  have hlast : b.toNat + 1 < 256 := by bv_omega
  have hsum : (b + 1#8).toNat = b.toNat + 1 := by bv_omega
  have hs := beNat_lt s
  rw [beNat_incBe, beNat_concat, beNat_concat, hsum, List.length_append, List.length_singleton, Nat.pow_succ,
    Nat.mod_eq_of_lt (by omega)]
  omega

/-- A last byte `ff` becomes `00` and carries into the bytes before it. -/
theorem incBe_concat_carry (s : Bytes) : incBe (s ++ [0xff#8]) = incBe s ++ [0x00#8] := by
  refine beNat_inj (by simp) ?_
  have hsum : (0xff#8).toNat + 256 * beNat s + 1 = 256 * (beNat s + 1) := by simp; omega
  rw [beNat_incBe, beNat_concat, beNat_concat, beNat_incBe, hsum, List.length_append, List.length_singleton,
    Nat.pow_succ', Nat.mul_mod_mul_left]
  simp

/-- The counter after `j` increments. -/
theorem incBe_iterate (s : Bytes) (j : Nat) :
    incBe^[j] s = natToBe s.length ((beNat s + j) % 256 ^ s.length) := by
  induction j with
  | zero => rw [Nat.add_zero, Nat.mod_eq_of_lt (beNat_lt s), natToBe_beNat, Function.iterate_zero_apply]
  | succ j ih =>
    rw [Function.iterate_succ_apply', ih, incBe, beNat_natToBe, natToBe_length, Nat.mod_mod, Nat.mod_add_mod,
      Nat.add_assoc]

/-- Settles O45, by the big-endian numbers of the two sides. -/
theorem incrementIsBigEndianAndWraps : Obligations.IncrementIsBigEndianAndWraps := by
  unfold Obligations.IncrementIsBigEndianAndWraps
  exact ⟨fun s => ⟨incBe_length s, beNat_incBe s⟩, fun s _ hb => incBe_concat hb s, incBe_concat_carry⟩

/-! ### XOR_BLOCK -/

theorem getElem_xorBlock {a b : Bytes} {k : Nat} (h : k < (xorBlock a b).length) :
    (xorBlock a b)[k] = a[k]'(by simp at h; omega) ^^^ b[k]'(by simp at h; omega) := List.getElem_zipWith

/-- Settles O46, by the byte of the result at each place. -/
theorem xorBlockIsBytewise : Obligations.XorBlockIsBytewise := by
  unfold Obligations.XorBlockIsBytewise
  refine fun a b hlen => ⟨by simp [hlen], fun k hk => ?_⟩
  have hb : k < b.length := hlen ▸ hk
  simp [getElem_xorBlock, hk, hb]

theorem xorBlock_cancel_right {a k : Bytes} (h : a.length = k.length) : xorBlock (xorBlock a k) k = a := by
  refine List.ext_getElem (by simp [h]) fun i _ _ => ?_
  rw [getElem_xorBlock, getElem_xorBlock, BitVec.xor_assoc, BitVec.xor_self, BitVec.xor_zero]

/-- What is added to both of two strings of one length does not show in their difference. -/
theorem xorBlock_xorBlock_xorBlock {a b k : Bytes} (ha : a.length = k.length) (hb : b.length = k.length) :
    xorBlock (xorBlock a k) (xorBlock b k) = xorBlock a b := by
  refine List.ext_getElem (by simp [ha, hb]) fun i _ _ => ?_
  have hbyte (x y z : Byte) : (x ^^^ z) ^^^ (y ^^^ z) = x ^^^ y := by
    rw [BitVec.xor_comm y, BitVec.xor_assoc, ← BitVec.xor_assoc z, BitVec.xor_self, BitVec.zero_xor]
  simp only [getElem_xorBlock, hbyte]

theorem blockAt_xorBlock (a b : Bytes) (Bb j : Nat) :
    blockAt (xorBlock a b) Bb j = xorBlock (blockAt a Bb j) (blockAt b Bb j) := by
  simp [blockAt, xorBlock, List.drop_zipWith, List.take_zipWith]

/-! ### Messages of whole blocks -/

section Blocks
variable {Bb : Nat} {a b : Bytes}

/-- Two messages of `N` blocks with the same blocks are the same. -/
theorem eq_of_blockAt_eq (hB : 0 < Bb) {N : Nat} (ha : a.length = N * Bb) (hb : b.length = N * Bb)
    (h : ∀ j < N, blockAt a Bb j = blockAt b Bb j) : a = b := by
  refine List.ext_getElem (ha.trans hb.symm) fun i hia hib => ?_
  have hblk : i / Bb < N := Nat.div_lt_of_lt_mul (by rw [Nat.mul_comm, ← ha]; exact hia)
  have hbyte (s : Bytes) : (blockAt s Bb (i / Bb))[i % Bb]? = s[i]? := by
    rw [blockAt, List.getElem?_take_of_lt (Nat.mod_lt i hB), List.getElem?_drop, Nat.mul_comm, Nat.div_add_mod]
  simpa [hia, hib] using (hbyte a).symm.trans ((congrArg (·[i % Bb]?) (h _ hblk)).trans (hbyte b))

theorem blockAt_append_left {j : Nat} (h : (j + 1) * Bb ≤ a.length) : blockAt (a ++ b) Bb j = blockAt a Bb j := by
  rw [Nat.succ_mul] at h
  rw [blockAt, List.drop_append_of_le_length (by omega), List.take_append_of_le_length (by simp; omega), blockAt]

theorem blockAt_append_right {N : Nat} (ha : a.length = N * Bb) (j : Nat) :
    blockAt (a ++ b) Bb (N + j) = blockAt b Bb j := by
  rw [blockAt, Nat.add_mul, ← ha, List.drop_length_add_append, blockAt]

end Blocks

end Sys2Proof.Machine

/-! PROOFS. The block loop by what a step passes on to the next block, ENCRYPT and DECRYPT as runs of it, and the
statements of 44_mode_layer.md. A step passes on its output or its input (CBC, CFB), or a function of the chain alone
(ECB, OFB, CTR), and with that the chain before every block is known. -/

namespace Sys2Proof.Machine

/-! ### `CHAIN` between the blocks of a run, by what the step passes on -/

section Passes
variable {step : Bytes → Bytes → Bytes × Bytes} {Bb : Nat} {din chain : Bytes}

/-- A step that passes on its output leaves the output block before (R194, R196). -/
theorem chainBefore_of_output (h : ∀ chain inp, (step chain inp).2 = (step chain inp).1) {dout : Bytes} {N : Nat}
    (hout : ∀ j < N, blockAt dout Bb j = outBlock step Bb din chain j) {j : Nat} (hj : j ≤ N) :
    chainBefore step Bb din chain j = if j = 0 then chain else blockAt dout Bb (j - 1) := by
  cases j with
  | zero => rfl
  | succ j => exact (h _ _).trans (hout j hj).symm

/-- A step that passes on its input leaves the input block before (R195, R197). -/
theorem chainBefore_of_input (h : ∀ chain inp, (step chain inp).2 = inp) (j : Nat) :
    chainBefore step Bb din chain j = if j = 0 then chain else blockAt din Bb (j - 1) := by
  cases j with
  | zero => rfl
  | succ j => exact h _ _

/-- A step that passes on a function of the chain alone iterates it (R192, R193, R198 to R201). -/
theorem chainBefore_of_iterate {g : Bytes → Bytes} (h : ∀ chain inp, (step chain inp).2 = g chain) (j : Nat) :
    chainBefore step Bb din chain j = g^[j] chain := by
  induction j with
  | zero => rfl
  | succ j ih => rw [chainBefore, h, ih, Function.iterate_succ_apply']

end Passes

/-! ### A run over a message in two parts -/

section Split
variable (step : Bytes → Bytes → Bytes × Bytes) {Bb N : Nat} {A : Bytes} (hA : A.length = N * Bb) (B chain : Bytes)
include hA

theorem chainBefore_append_left {j : Nat} (hj : j ≤ N) :
    chainBefore step Bb (A ++ B) chain j = chainBefore step Bb A chain j := by
  induction j with
  | zero => rfl
  | succ j ih =>
    rw [chainBefore, ih (by omega), blockAt_append_left (hA ▸ Nat.mul_le_mul_right Bb hj), chainBefore]

theorem outBlock_append_left {j : Nat} (hj : j < N) :
    outBlock step Bb (A ++ B) chain j = outBlock step Bb A chain j := by
  rw [outBlock, chainBefore_append_left step hA B chain hj.le, blockAt_append_left (hA ▸ Nat.mul_le_mul_right Bb hj),
    outBlock]

theorem chainBefore_append_right (j : Nat) :
    chainBefore step Bb (A ++ B) chain (N + j) = chainBefore step Bb B (chainBefore step Bb A chain N) j := by
  induction j with
  | zero => exact chainBefore_append_left step hA B chain le_rfl
  | succ j ih => rw [← Nat.add_assoc, chainBefore, ih, blockAt_append_right hA, chainBefore]

theorem outBlock_append_right (j : Nat) :
    outBlock step Bb (A ++ B) chain (N + j) = outBlock step Bb B (chainBefore step Bb A chain N) j := by
  rw [outBlock, chainBefore_append_right step hA, blockAt_append_right hA, outBlock]

variable {step B chain} {NB : Nat} {CA CB C : Bytes}

/-- The output over the whole message is the outputs over its parts, joined. -/
theorem eq_append_of_outBlock (hB : 0 < Bb) (hCA : CA.length = N * Bb) (hCB : CB.length = NB * Bb)
    (hC : C.length = (N + NB) * Bb) (hblkA : ∀ j < N, blockAt CA Bb j = outBlock step Bb A chain j)
    (hblkB : ∀ j < NB, blockAt CB Bb j = outBlock step Bb B (chainBefore step Bb A chain N) j)
    (hblk : ∀ j < N + NB, blockAt C Bb j = outBlock step Bb (A ++ B) chain j) : C = CA ++ CB := by
  refine eq_of_blockAt_eq hB hC (by rw [List.length_append, hCA, hCB, Nat.add_mul]) fun j hj => ?_
  rw [hblk j hj]
  rcases Nat.lt_or_ge j N with hlt | hge
  · rw [outBlock_append_left step hA B chain hlt, blockAt_append_left (hCA ▸ Nat.mul_le_mul_right Bb hlt), hblkA j hlt]
  · obtain ⟨k, rfl⟩ := Nat.exists_eq_add_of_le hge
    rw [outBlock_append_right step hA, blockAt_append_right hCA, hblkB k (Nat.lt_of_add_lt_add_left hj)]

end Split

/-! ### ENCRYPT and DECRYPT as a run -/

/-- The chain that a run of a context over a message ends with. -/
def chainAfter (x : Context) (dir : Direction) (din : Bytes) : Bytes :=
  chainBefore (x.step dir) x.conf.Bb din x.chain (din.length / x.conf.Bb)

/-- ECB passes the chain on as it is. -/
theorem chainAfter_of_ecb {x : Context} (hm : x.mode = .ecb) (dir : Direction) (din : Bytes) :
    chainAfter x dir din = x.chain := by
  have hstep (chain inp : Bytes) : (x.step dir chain inp).2 = id chain := by
    cases dir <;> rw [Context.step, hm] <;> rfl
  rw [chainAfter, chainBefore_of_iterate hstep, Function.iterate_id, id]

theorem length_eq_of_messageFits {s : State} {Bb len : Nat} (h : messageFits s Bb len) : len = len / Bb * Bb :=
  (Nat.div_mul_cancel (Nat.dvd_of_mod_eq_zero h.2.1)).symm

theorem blocks_pos_of_messageFits {s : State} {Bb len : Nat} (h : messageFits s Bb len) : 0 < len / Bb :=
  Nat.pos_of_mul_pos_right (length_eq_of_messageFits h ▸ h.1)

theorem messageFits_congr {s u : State} (h : u.maxBlocks = s.maxBlocks) {Bb len : Nat} :
    messageFits u Bb len ↔ messageFits s Bb len := by simp [messageFits, h]

theorem chainValue_eq {s : State} {x : Context} (h : s.context? = some x) : chainValue s x.conf.Bb = x.chain := by
  obtain ⟨_, c, md, _, _, rfl⟩ := context?_eq_some_iff.1 h
  rfl

/-- What a successful ENCRYPT or DECRYPT leaves is the same context but for the chain. -/
theorem cryptDone_context? {s : State} {x : Context} (h : s.context? = some x) {chain : Bytes}
    (hlen : chain.length = x.conf.Bb) (hecb : x.mode = .ecb → chain = x.chain) (dout : Bytes) :
    (cryptDone x.mode chain dout s).context? = some { x with chain := chain } := by
  obtain ⟨hv, c, md, hc, hm, rfl⟩ := context?_eq_some_iff.1 h
  have hchain : chain = (cryptDone md chain dout s).chain.toList.take c.Bb := by
    by_cases hmd : md = .ecb
    · subst hmd
      exact hecb rfl
    · rw [cryptDone, State.respond_chain, State.retireWork_chain, State.advanceChain_chain _ _ _ hmd,
        chainFile_take hlen (resolve_Bb_le hc)]
  obtain ⟨hv', hf', hcfg', hm', hrk'⟩ := cryptDone_sameKeys md chain dout s
  refine context?_eq_some_iff.2 ⟨hv' ▸ hv, c, md, by rw [hf', hcfg', hc], hm' ▸ hm, ?_⟩
  rw [hf', hcfg', hrk', ← hchain]

theorem length_of_cryptOk {s t : State} {din dout : Bytes} (h : cryptOk s t din dout) : dout.length = din.length :=
  h.2.1

theorem maxBlocks_of_cryptOk {s t : State} {din dout : Bytes} (h : cryptOk s t din dout) :
    t.maxBlocks = s.maxBlocks := by
  obtain ⟨⟨_, _, hmax⟩, _⟩ := h
  exact hmax

/-- From `s` to `t` a context has run over `din` in a direction, giving `dout` and moving its chain on. -/
def ran (x : Context) (dir : Direction) (s t : State) (din dout : Bytes) : Prop :=
  cryptOk s t din dout ∧ t.context? = some { x with chain := chainAfter x dir din } ∧
    ∀ j < din.length / x.conf.Bb, blockAt dout x.conf.Bb j = outBlock (x.step dir) x.conf.Bb din x.chain j

section Run
variable {s : State} {x : Context} {din : Bytes} (hx : s.context? = some x)
  (hfit : messageFits s x.conf.Bb din.length)
include hx hfit

/-- With a context and a message that fits, ENCRYPT and DECRYPT run the context over the message. -/
theorem cryptMessage_ran (dir : Direction) :
    ∃ t dout, cryptMessage dir din s = .next t ∧ ran x dir s t din dout := by
  obtain ⟨dout, hdone, hlen, hblk⟩ := cryptMessage_ok (dir := dir) hx hfit
  have hchain : (chainAfter x dir din).length = x.conf.Bb :=
    chainBefore_length (context_step_keepsBlocks hx dir) (context?_chain_length hx) _
      (length_eq_of_messageFits hfit).ge
  exact ⟨_, dout, hdone, ⟨cryptDone_respondedWith .., hlen, cryptDone_sameKeys ..⟩,
    cryptDone_context? hx hchain (fun hm => chainAfter_of_ecb hm dir din) dout, hblk⟩

/-- A command whose step passes on its output: each block is the step's on the output block before. -/
theorem cryptMessage_of_output {dir : Direction}
    (hstep : ∀ chain inp, (x.step dir chain inp).2 = (x.step dir chain inp).1) :
    ∃ t dout, cryptMessage dir din s = .next t ∧ cryptOk s t din dout ∧
      (∀ j < din.length / x.conf.Bb, blockAt dout x.conf.Bb j =
        (x.step dir (if j = 0 then x.chain else blockAt dout x.conf.Bb (j - 1)) (blockAt din x.conf.Bb j)).1) ∧
      chainValue t x.conf.Bb = blockAt dout x.conf.Bb (din.length / x.conf.Bb - 1) := by
  obtain ⟨t, dout, ht, hok, hctx, hblk⟩ := cryptMessage_ran hx hfit dir
  refine ⟨t, dout, ht, hok, fun j hj => ?_, ?_⟩
  · rw [hblk j hj, outBlock, chainBefore_of_output hstep hblk hj.le]
  · rw [chainValue_eq hctx, chainAfter, chainBefore_of_output hstep hblk le_rfl,
      if_neg (blocks_pos_of_messageFits hfit).ne']

/-- A command whose step passes on its input: each block is the step's on the input block before. -/
theorem cryptMessage_of_input {dir : Direction} (hstep : ∀ chain inp, (x.step dir chain inp).2 = inp) :
    ∃ t dout, cryptMessage dir din s = .next t ∧ cryptOk s t din dout ∧
      (∀ j < din.length / x.conf.Bb, blockAt dout x.conf.Bb j =
        (x.step dir (if j = 0 then x.chain else blockAt din x.conf.Bb (j - 1)) (blockAt din x.conf.Bb j)).1) ∧
      chainValue t x.conf.Bb = blockAt din x.conf.Bb (din.length / x.conf.Bb - 1) := by
  obtain ⟨t, dout, ht, hok, hctx, hblk⟩ := cryptMessage_ran hx hfit dir
  refine ⟨t, dout, ht, hok, fun j hj => ?_, ?_⟩
  · rw [hblk j hj, outBlock, chainBefore_of_input hstep]
  · rw [chainValue_eq hctx, chainAfter, chainBefore_of_input hstep, if_neg (blocks_pos_of_messageFits hfit).ne']

end Run

/-! ### ECB, CBC and CFB -/

/-- A command in ECB: each block alone, and `CHAIN` as it was. -/
theorem cryptMessage_of_ecb {s : State} {x : Context} {din : Bytes} (hx : s.context? = some x) (hm : x.mode = .ecb)
    (hfit : messageFits s x.conf.Bb din.length) {dir : Direction} {F : Bytes → Bytes}
    (hstep : ∀ chain inp, (x.step dir chain inp).1 = F inp) :
    ∃ t dout, cryptMessage dir din s = .next t ∧ cryptOk s t din dout ∧ t.chain = s.chain ∧
      ∀ j < din.length / x.conf.Bb, blockAt dout x.conf.Bb j = F (blockAt din x.conf.Bb j) := by
  obtain ⟨t, dout, ht, hok, _, hblk⟩ := cryptMessage_ran hx hfit dir
  have hmode : s.mode = 0#3 := by
    obtain ⟨_, c, md, _, hmd, rfl⟩ := context?_eq_some_iff.1 hx
    obtain rfl : md = .ecb := hm
    exact (modeCode_of_modeOf hmd).symm
  obtain ⟨_, hchain, _⟩ := cryptMessage_frame ht
  exact ⟨t, dout, ht, hok, hchain hmode, fun j hj => (hblk j hj).trans (hstep _ _)⟩

/-- Settles O29: the step of ECB in each direction. -/
theorem ecbRunsEachBlockAlone : Obligations.EcbRunsEachBlockAlone := by
  unfold Obligations.EcbRunsEachBlockAlone
  rintro s ⟨f, cfg, md, c, ks, chain⟩ din hx rfl hfit
  exact ⟨cryptMessage_of_ecb hx rfl hfit (dir := .enc) fun _ _ => rfl,
    cryptMessage_of_ecb hx rfl hfit (dir := .dec) fun _ _ => rfl⟩

/-- Settles O30: in encryption the ciphertext passed on is the output, in decryption the input. -/
theorem cbcChainsCiphertext : Obligations.CbcChainsCiphertext := by
  unfold Obligations.CbcChainsCiphertext
  rintro s ⟨f, cfg, md, c, ks, chain⟩ din hx rfl hfit
  exact ⟨cryptMessage_of_output hx hfit (dir := .enc) fun _ _ => rfl,
    cryptMessage_of_input hx hfit (dir := .dec) fun _ _ => rfl⟩

/-- Settles O31: in encryption the ciphertext passed on is the output, in decryption the input. -/
theorem cfbChainsCiphertext : Obligations.CfbChainsCiphertext := by
  unfold Obligations.CfbChainsCiphertext
  rintro s ⟨f, cfg, md, c, ks, chain⟩ din hx rfl hfit
  exact ⟨cryptMessage_of_output hx hfit (dir := .enc) fun _ _ => rfl,
    cryptMessage_of_input hx hfit (dir := .dec) fun _ _ => rfl⟩

/-! ### OFB and CTR -/

/-- The step that OFB and CTR have in both directions: the input XORed with `E` of the chain, and the chain
moved on by `g`. -/
def streamStep (E g : Bytes → Bytes) (chain inp : Bytes) : Bytes × Bytes := (xorBlock inp (E chain), g chain)

theorem step_of_ofb {x : Context} (hm : x.mode = .ofb) (dir : Direction) :
    x.step dir = streamStep (blockE x.conf x.subkeys) (blockE x.conf x.subkeys) := by
  cases dir <;> rw [Context.step, hm] <;> rfl

theorem step_of_ctr {x : Context} (hm : x.mode = .ctr) (dir : Direction) :
    x.step dir = streamStep (blockE x.conf x.subkeys) incBe := by
  cases dir <;> rw [Context.step, hm] <;> rfl

/-- A command in a stream mode: a keystream and a final chain that the message does not enter. -/
theorem cryptMessage_of_stream {s : State} {x : Context} {din : Bytes} (hx : s.context? = some x)
    (hfit : messageFits s x.conf.Bb din.length) {dir : Direction} {E g : Bytes → Bytes}
    (hstep : x.step dir = streamStep E g) :
    ∃ t dout, cryptMessage dir din s = .next t ∧ cryptOk s t din dout ∧
      (∀ j < din.length / x.conf.Bb, blockAt dout x.conf.Bb j =
        xorBlock (blockAt din x.conf.Bb j) (E (g^[j] x.chain))) ∧
      chainValue t x.conf.Bb = g^[din.length / x.conf.Bb] x.chain := by
  obtain ⟨t, dout, ht, hok, hctx, hblk⟩ := cryptMessage_ran hx hfit dir
  have hchain (j : Nat) : chainBefore (x.step dir) x.conf.Bb din x.chain j = g^[j] x.chain :=
    chainBefore_of_iterate (fun _ _ => by rw [hstep, streamStep]) j
  refine ⟨t, dout, ht, hok, fun j hj => ?_, (chainValue_eq hctx).trans (hchain _)⟩
  rw [hblk j hj, outBlock, hchain, hstep, streamStep]

theorem exec_eq_cryptMessage {i : Instr} {din : Bytes} (hi : i = .encrypt din ∨ i = .decrypt din) :
    ∃ dir, exec i = cryptMessage dir din := by
  rcases hi with rfl | rfl
  · exact ⟨.enc, rfl⟩
  · exact ⟨.dec, rfl⟩

/-- Settles O32: OFB iterates `E` on the chain. -/
theorem ofbChainsKeystream : Obligations.OfbChainsKeystream := by
  unfold Obligations.OfbChainsKeystream
  intro s x din i hx hm hfit hi
  obtain ⟨dir, hexec⟩ := exec_eq_cryptMessage hi
  simp only [hexec, Function.iterate_succ_apply']
  exact cryptMessage_of_stream hx hfit (step_of_ofb hm dir)

/-- Settles O33: CTR iterates `INC_BE` on the chain, which counts blocks. -/
theorem ctrCountsBlocks : Obligations.CtrCountsBlocks := by
  unfold Obligations.CtrCountsBlocks
  intro s x din i hx hm hfit hi
  obtain ⟨dir, hexec⟩ := exec_eq_cryptMessage hi
  have hcount (j : Nat) : natToBe x.conf.Bb ((beNat x.chain + j) % 256 ^ x.conf.Bb) = incBe^[j] x.chain := by
    rw [incBe_iterate, context?_chain_length hx]
  simp only [hexec, hcount]
  exact cryptMessage_of_stream hx hfit (step_of_ctr hm dir)

/-- Settles O37: from one chain value the two commands add the same keystream to their messages. -/
theorem keystreamIndependentOfData : Obligations.KeystreamIndependentOfData := by
  unfold Obligations.KeystreamIndependentOfData
  intro s x A B hx hmode hfit hlen
  obtain ⟨g, hstep⟩ : ∃ g, x.step .enc = streamStep (blockE x.conf x.subkeys) g := by
    rcases hmode with hm | hm
    · exact ⟨_, step_of_ctr hm .enc⟩
    · exact ⟨_, step_of_ofb hm .enc⟩
  obtain ⟨t, CA, ht, hokA, hblkA, hchainA⟩ := cryptMessage_of_stream hx hfit hstep
  obtain ⟨u, CB, hu, hokB, hblkB, hchainB⟩ := cryptMessage_of_stream hx (hlen.symm ▸ hfit) hstep
  refine ⟨t, u, CA, CB, ht, hokA, hu, hokB, ?_, by rw [hchainA, hchainB, hlen]⟩
  have hN := length_eq_of_messageFits hfit
  have hCA := length_of_cryptOk hokA
  have hCB := length_of_cryptOk hokB
  refine eq_of_blockAt_eq (resolve_Bb_pos (context?_resolve hx)) (N := A.length / x.conf.Bb)
    (by rw [xorBlock_length, hCA, hCB, hlen, Nat.min_self, ← hN])
    (by rw [xorBlock_length, hlen, Nat.min_self, ← hN]) fun j hj => ?_
  have hj' : (j + 1) * x.conf.Bb ≤ A.length := hN ▸ Nat.mul_le_mul_right _ hj
  have hkey := blockE_length (context?_resolve hx) x.subkeys
  rw [blockAt_xorBlock, hblkA j hj, hblkB j (hlen.symm ▸ hj), blockAt_xorBlock, xorBlock_xorBlock_xorBlock]
  · rw [blockAt_length hj', hkey]
  · rw [blockAt_length (hlen.symm ▸ hj'), hkey]

/-! ### A message in two commands -/

/-- Two commands of one direction that carry a message in two parts do what one command does. -/
theorem cryptMessage_split {s : State} {x : Context} {A B : Bytes} (hx : s.context? = some x)
    (hfitA : messageFits s x.conf.Bb A.length) (hfitB : messageFits s x.conf.Bb B.length)
    (hfit : messageFits s x.conf.Bb (A ++ B).length) (dir : Direction) :
    ∃ s1 s2 t CA CB, cryptMessage dir A s = .next s1 ∧ cryptOk s s1 A CA ∧
      cryptMessage dir B s1 = .next s2 ∧ cryptOk s1 s2 B CB ∧
      cryptMessage dir (A ++ B) s = .next t ∧ cryptOk s t (A ++ B) (CA ++ CB) ∧ t.context? = s2.context? := by
  obtain ⟨s1, CA, h1, hokA, hctxA, hblkA⟩ := cryptMessage_ran hx hfitA dir
  obtain ⟨s2, CB, h2, hokB, hctxB, hblkB⟩ :=
    cryptMessage_ran hctxA ((messageFits_congr (maxBlocks_of_cryptOk hokA)).2 hfitB) dir
  obtain ⟨t, C, ht, hok, hctx, hblk⟩ := cryptMessage_ran hx hfit dir
  have hNA := length_eq_of_messageFits hfitA
  have hN : (A ++ B).length / x.conf.Bb = A.length / x.conf.Bb + B.length / x.conf.Bb := by
    rw [List.length_append, Nat.add_div_of_dvd_right (Nat.dvd_of_mod_eq_zero hfitA.2.1)]
  have hjoin : C = CA ++ CB := eq_append_of_outBlock hNA (resolve_Bb_pos (context?_resolve hx))
    ((length_of_cryptOk hokA).trans hNA) ((length_of_cryptOk hokB).trans (length_eq_of_messageFits hfitB))
    (hN ▸ (length_of_cryptOk hok).trans (length_eq_of_messageFits hfit)) hblkA hblkB (hN ▸ hblk)
  have hchain : chainAfter x dir (A ++ B) = chainAfter { x with chain := chainAfter x dir A } dir B := by
    rw [chainAfter, hN, chainBefore_append_right _ hNA]
    rfl
  exact ⟨s1, s2, t, CA, CB, h1, hokA, h2, hokB, ht, hjoin ▸ hok, by rw [hctx, hctxB, hchain]⟩

/-- Settles O35, by the run over a message in two parts, in each direction. -/
theorem splitMessageContinuesStream : Obligations.SplitMessageContinuesStream := by
  unfold Obligations.SplitMessageContinuesStream
  exact fun s x A B hx hfitA hfitB hfit =>
    ⟨cryptMessage_split hx hfitA hfitB hfit .enc, cryptMessage_split hx hfitA hfitB hfit .dec⟩

/-! ### Decryption of what an encryption gave -/

/-- The decryption step takes back the encryption step, and passes on the same chain. ECB does not read the
chain, so there the two may find different ones. -/
theorem modeStep_dec_enc {md : Mode} {Bb : Nat} {E D : Bytes → Bytes} (hE : ∀ b, (E b).length = Bb)
    (hDE : ∀ b, b.length = Bb → D (E b) = b) {chain chain' inp : Bytes} (hchain : chain.length = Bb)
    (hinp : inp.length = Bb) (heq : md ≠ .ecb → chain' = chain) :
    (modeStep md .dec E D chain' (modeStep md .enc E D chain inp).1).1 = inp ∧
      (md ≠ .ecb → (modeStep md .dec E D chain' (modeStep md .enc E D chain inp).1).2 =
        (modeStep md .enc E D chain inp).2) := by
  have hcancel : xorBlock (xorBlock inp (E chain)) (E chain) = inp := xorBlock_cancel_right (hinp.trans (hE chain).symm)
  cases md with
  | ecb => exact ⟨hDE inp hinp, fun h => absurd rfl h⟩
  | ctr | cfb | ofb =>
    obtain rfl := heq (by decide)
    exact ⟨hcancel, fun _ => rfl⟩
  | cbc =>
    obtain rfl := heq (by decide)
    refine ⟨?_, fun _ => rfl⟩
    simp only [modeStep, cbcDec, cbcEnc]
    rw [hDE _ (by simp [hinp, hchain]), xorBlock_cancel_right (hinp.trans hchain.symm)]

section RoundTrip
variable {s : State} {x : Context} {chain' M C : Bytes} {N : Nat} (hx : s.context? = some x)
  (heq : x.mode ≠ .ecb → chain' = x.chain) (hM : M.length = N * x.conf.Bb)
  (hC : ∀ j < N, blockAt C x.conf.Bb j = outBlock (x.step .enc) x.conf.Bb M x.chain j)
include hx hM hC

/-- On block `j` of the ciphertext, with the chain that the encryption found there, the decryption step gives
block `j` of the message and passes on the chain that the encryption passed on. -/
theorem step_dec_blockAt {j : Nat} (hj : j < N) {chain : Bytes}
    (hchain : x.mode ≠ .ecb → chain = chainBefore (x.step .enc) x.conf.Bb M x.chain j) :
    (x.step .dec chain (blockAt C x.conf.Bb j)).1 = blockAt M x.conf.Bb j ∧
      (x.mode ≠ .ecb → (x.step .dec chain (blockAt C x.conf.Bb j)).2 =
        chainBefore (x.step .enc) x.conf.Bb M x.chain (j + 1)) := by
  have hc := context?_resolve hx
  have hle : (j + 1) * x.conf.Bb ≤ M.length := hM ▸ Nat.mul_le_mul_right _ hj
  rw [hC j hj]
  exact modeStep_dec_enc (blockE_length hc x.subkeys) (fun _ => blockD_blockE hc x.subkeys)
    (chainBefore_length (context_step_keepsBlocks hx .enc) (context?_chain_length hx) j
      (le_trans (Nat.mul_le_mul_right _ j.le_succ) hle))
    (blockAt_length hle) hchain

include heq

theorem chainBefore_dec_eq_enc (hm : x.mode ≠ .ecb) {j : Nat} (hj : j ≤ N) :
    chainBefore (x.step .dec) x.conf.Bb C chain' j = chainBefore (x.step .enc) x.conf.Bb M x.chain j := by
  induction j with
  | zero => exact heq hm
  | succ j ih => exact (step_dec_blockAt hx hM hC hj fun _ => ih (Nat.le_of_succ_le hj)).2 hm

theorem outBlock_dec_eq {j : Nat} (hj : j < N) :
    outBlock (x.step .dec) x.conf.Bb C chain' j = blockAt M x.conf.Bb j :=
  (step_dec_blockAt hx hM hC hj fun hm => chainBefore_dec_eq_enc hx heq hM hC hm hj.le).1

end RoundTrip

/-- A DECRYPT in a context with the chain that the ENCRYPT found, or with any in ECB, gives the message back. -/
theorem cryptMessage_dec_of_ran {s t u : State} {x : Context} {chain' M C : Bytes} (hx : s.context? = some x)
    (hfit : messageFits s x.conf.Bb M.length) (hran : ran x .enc s t M C)
    (hu : u.context? = some { x with chain := chain' }) (heq : x.mode ≠ .ecb → chain' = x.chain)
    (hmax : u.maxBlocks = s.maxBlocks) :
    ∃ v, cryptMessage .dec C u = .next v ∧ v.responses = u.responses ++ [{ status := 0#3, dout := some M }] := by
  obtain ⟨hok, _, hC⟩ := hran
  have hlen := length_of_cryptOk hok
  have hM := length_eq_of_messageFits hfit
  obtain ⟨v, P, hv, ⟨⟨hresp, _⟩, hP, _⟩, _, hblk⟩ :=
    cryptMessage_ran hu ((messageFits_congr hmax).2 (hlen.symm ▸ hfit)) .dec
  have hback : P = M := eq_of_blockAt_eq (resolve_Bb_pos (context?_resolve hx)) (hP.trans (hlen.trans hM)) hM
    fun j hj => (hblk j (hlen.symm ▸ hj)).trans (outBlock_dec_eq hx heq hM hC hj)
  exact ⟨v, hv, hback ▸ hresp⟩

/-- A command that has raised an error has not responded OK. -/
theorem not_ok_of_raise {o : Result} {s t : State} {st : Status} {d : Option Bytes} (hst : st ≠ .ok)
    (hraise : o = .next (s.raise st)) (h : o = .next t) :
    t.responses ≠ s.responses ++ [{ status := 0#3, dout := d }] := by
  obtain rfl := Host.Outcome.next.inj (hraise.symm.trans h)
  exact raise_responses_ne_ok hst d

/-- An ENCRYPT or DECRYPT that responds OK has run the context it found over a message that fits. -/
theorem ran_of_ok {dir : Direction} {s t : State} {din dout : Bytes} (h : cryptMessage dir din s = .next t)
    (hok : t.responses = s.responses ++ [{ status := 0#3, dout := some dout }]) :
    ∃ x, s.context? = some x ∧ messageFits s x.conf.Bb din.length ∧ ran x dir s t din dout := by
  rcases cryptMessage_cases dir din s with
    ⟨_, e⟩ | ⟨_, _, e⟩ | ⟨x, _, _, e⟩ | ⟨x, _, _, hx, hfit, _⟩
  · exact absurd hok (not_ok_of_raise (by decide) e h)
  · cases e.symm.trans h
  · exact absurd hok (not_ok_of_raise (by decide) e h)
  · obtain ⟨t', dout', h', hran⟩ := cryptMessage_ran hx hfit dir
    obtain rfl := Host.Outcome.next.inj (h'.symm.trans h)
    obtain rfl : dout' = dout := by
      obtain ⟨⟨⟨hresp, _⟩, _⟩, _⟩ := hran
      simpa using hresp.symm.trans hok
    exact ⟨x, hx, hfit, hran⟩

/-! ### The contexts that one INIT installs in two states -/

theorem requiredBlock_ne_notRequired (Bb : Nat) (o : Option Bytes) : requiredBlock Bb o ≠ .notRequired := by
  cases o with
  | none => simp [requiredBlock]
  | some v => rw [requiredBlock]; split <;> simp

/-- A mode that needs no chain operand is ECB (R75). -/
theorem eq_ecb_of_notRequired {md : Mode} {Bb : Nat} {iv ctr : Option Bytes}
    (h : initialChain md Bb iv ctr = .notRequired) : md = .ecb := by
  cases md with
  | ecb => rfl
  | ctr => exact absurd h (requiredBlock_ne_notRequired Bb ctr)
  | cbc | cfb | ofb => exact absurd h (requiredBlock_ne_notRequired Bb iv)

/-- An INIT that responds OK has the chain value its mode needs, and succeeds in every state. -/
theorem initContext_of_ok {f : Family} {cfg : BitVec 4} {c : Configuration} (hc : resolve f cfg = some c) {md : Mode}
    {key : Bytes} {iv ctr : Option Bytes} {s s1 : State} (h : initContext f cfg md key iv ctr s = .next s1)
    (hok : s1.responses = s.responses ++ [{ status := 0#3, dout := none }]) :
    ∃ chain0, (md ≠ .ecb → (chain0.getD []).length = c.Bb) ∧
      ∀ u, initContext f cfg md key iv ctr u = .next (initDone f cfg md c key chain0 u) := by
  rcases initContext_cases hc md key iv ctr s with
    ⟨_, e⟩ | ⟨_, _, e⟩ | ⟨hk, hchain, _⟩ | ⟨b, hk, hchain, _⟩
  · exact absurd hok (not_ok_of_raise (by decide) e h)
  · exact absurd hok (not_ok_of_raise (by decide) e h)
  · exact ⟨none, fun hmd => absurd (eq_ecb_of_notRequired hchain) hmd,
      fun u => by simp [initContext, hc, hk, hchain, initWork_eq hc hk]⟩
  · exact ⟨some b, fun _ => initialChain_length hchain,
      fun u => by simp [initContext, hc, hk, hchain, initWork_eq hc hk]⟩

/-- The contexts that one INIT installs in two states are the same, but for the chain in ECB, which holds no
value there. -/
theorem contexts_of_init {i : Instr} {s u s1 u1 : State} (hs : exec i s = .next s1) (hu : exec i u = .next u1)
    (hok : s1.responses = s.responses ++ [{ status := 0#3, dout := none }]) :
    ∃ x chain', s1.context? = some x ∧ u1.context? = some { x with chain := chain' } ∧
      (x.mode ≠ .ecb → chain' = x.chain) ∧ s1.maxBlocks = s.maxBlocks ∧ u1.maxBlocks = u.maxBlocks := by
  rcases exec_next hs with
    ⟨st, hst, rfl⟩ | ⟨f, cfg, md, key, iv, ctr, c, _, hi, hc, _⟩ | ⟨x, chain, dout, _, rfl⟩
  · exact absurd hok (raise_responses_ne_ok hst none)
  · rw [exec_init hi] at hs hu
    obtain ⟨chain0, hlen, hdone⟩ := initContext_of_ok hc hs hok
    obtain rfl := Host.Outcome.next.inj ((hdone s).symm.trans hs)
    obtain rfl := Host.Outcome.next.inj ((hdone u).symm.trans hu)
    refine ⟨_, _, initDone_context? hc chain0 s, initDone_context? hc chain0 u, fun hm => ?_, rfl, rfl⟩
    simp only [chainFile_take (hlen hm) (resolve_Bb_le hc)]
  · obtain ⟨hresp, _⟩ := cryptDone_respondedWith x.mode chain dout s
    simp [hresp] at hok

/-- Settles O36: the two INITs leave contexts of one stream, and in such a context DECRYPT takes the ENCRYPT
back block by block. -/
theorem freshContextDecryptsMessage : Obligations.FreshContextDecryptsMessage := by
  unfold Obligations.FreshContextDecryptsMessage
  intro i s u s1 s2 u1 M C hs hok henc hC hu hmax
  obtain ⟨x, chain', hx, hx', heq, hmaxs, hmaxu⟩ := contexts_of_init hs hu hok
  obtain ⟨y, hy, hfit, hran⟩ := ran_of_ok henc hC
  obtain rfl : x = y := Option.some.inj (hx.symm.trans hy)
  exact cryptMessage_dec_of_ran hx hfit hran hx' heq (by rw [hmaxu, hmax, hmaxs])

end Sys2Proof.Machine

/-! PROOFS. INIT by its checks, runs of the engine, and the statements of 45_context_commands.md. Each command issued
takes one step and gives one response, so a run is known from an invariant of its steps, and two runs from a relation
that their steps keep. -/

namespace Sys2Proof.Machine

/-! ### INIT whose checks pass -/

theorem blockOperand_eq_true_iff {Bb : Nat} {o : Option Bytes} :
    blockOperand Bb o = true ↔ requiredBlock Bb o ≠ .missing := by
  cases o with
  | none => simp [blockOperand, requiredBlock]
  | some v => by_cases hv : v.length = Bb <;> simp [blockOperand, requiredBlock, hv]

/-- A chain operand agrees with the mode exactly when INIT does not find it missing (R243). -/
theorem chainOperandOk_eq_true_iff {md : Mode} {Bb : Nat} {iv ctr : Option Bytes} :
    chainOperandOk md Bb iv ctr = true ↔ initialChain md Bb iv ctr ≠ .missing := by
  cases md with
  | ecb => simp [chainOperandOk, initialChain]
  | ctr | cbc | cfb | ofb => exact blockOperand_eq_true_iff

/-- What an INIT is well formed by: the two checks that its operands have to pass (R242, R243). -/
theorem wellFormed_init_iff {i : Instr} {f : Family} {cfg : BitVec 4} {md : Mode} {key : Bytes}
    {iv ctr : Option Bytes} (hi : commandFields i = .init f cfg md key iv ctr) {c : Configuration}
    (hc : resolve f cfg = some c) :
    wellFormed i = true ↔ key.length = c.Kb ∧ initialChain md c.Bb iv ctr ≠ .missing := by
  simp [wellFormed, hi, initOk, hc, chainOperandOk_eq_true_iff]

theorem initialChain_ctr_eq_value {Bb : Nat} {b : Bytes} (h : b.length = Bb) (iv : Option Bytes) :
    initialChain .ctr Bb iv (some b) = .value b :=
  requiredBlock_eq_value_iff.2 ⟨rfl, h⟩

theorem initialChain_iv_eq_value {md : Mode} (hmd : md = .cbc ∨ md = .cfb ∨ md = .ofb) {Bb : Nat} {b : Bytes}
    (h : b.length = Bb) (ctr : Option Bytes) : initialChain md Bb (some b) ctr = .value b := by
  have hvalue : requiredBlock Bb (some b) = .value b := requiredBlock_eq_value_iff.2 ⟨rfl, h⟩
  rcases hmd with rfl | rfl | rfl <;> exact hvalue

section Installed
variable {f : Family} {cfg : BitVec 4} {c : Configuration} (hc : resolve f cfg = some c)
include hc

/-- The state a successful INIT leaves holds the selectors and, in `RK[0 .. T-1]`, the key schedule (R150, R220). -/
theorem initDone_initOkWith (md : Mode) (key : Bytes) (chain0 : Option Bytes) (s : State) :
    initOkWith s (initDone f cfg md c key chain0 s) f cfg md c key := by
  have hlen : (keySchedule c (keyWordsOf c key)).length = c.T := keySchedule_length hc (by simp [keyWordsOf])
  refine ⟨initDone_respondedWith f cfg md c key chain0 s, rfl, rfl, rfl, rfl, hlen, fun i h72 hi => ?_⟩
  have hks : i < (keySchedule c (keyWordsOf c key)).length := hlen.symm ▸ hi
  rw [initDone_rk, rkFile_getElem, List.getElem?_eq_getElem hks, List.getD_eq_getElem _ _ hks]
  rfl

/-- After an INIT with a chain value, `CHAIN` is that value (R26). -/
theorem initDone_chainValue {b : Bytes} (hb : b.length = c.Bb) (md : Mode) (key : Bytes) (s : State) :
    chainValue (initDone f cfg md c key (some b) s) c.Bb = b := by
  rw [chainValue, initDone_chain, Option.getD_some, chainFile_take hb (resolve_Bb_le hc)]

variable {i : Instr} {md : Mode} {key : Bytes} {iv ctr : Option Bytes}
  (hi : commandFields i = .init f cfg md key iv ctr) (hk : key.length = c.Kb)
include hi hk

theorem exec_init_of_notRequired (hchain : initialChain md c.Bb iv ctr = .notRequired) (s : State) :
    exec i s = .next (initDone f cfg md c key none s) := by
  simp [exec_init hi, initContext, hc, hk, hchain, initWork_eq hc hk]

theorem exec_init_of_value {b : Bytes} (hchain : initialChain md c.Bb iv ctr = .value b) (s : State) :
    exec i s = .next (initDone f cfg md c key (some b) s) := by
  simp [exec_init hi, initContext, hc, hk, hchain, initWork_eq hc hk]

/-- An INIT with a key of the right length and the chain value its mode needs completes, with that value in
`CHAIN`. -/
theorem exec_init_installs {b : Bytes} (hchain : initialChain md c.Bb iv ctr = .value b) (s : State) :
    ∃ t, exec i s = .next t ∧ initOkWith s t f cfg md c key ∧ chainValue t c.Bb = b :=
  ⟨_, exec_init_of_value hc hi hk hchain s, initDone_initOkWith hc md key (some b) s,
    initDone_chainValue hc (initialChain_length hchain) md key s⟩

end Installed

/-- Settles O20: ECB needs no chain operand, so the key length is the only check. -/
theorem ecbInitCompletes : Obligations.EcbInitCompletes := by
  unfold Obligations.EcbInitCompletes
  exact fun i f cfg key iv ctr c s hi hc hk =>
    ⟨_, exec_init_of_notRequired hc hi hk rfl s, initDone_initOkWith hc .ecb key none s⟩

/-- Settles O21: the chain value of CTR is the counter. -/
theorem ctrInitCompletes : Obligations.CtrInitCompletes := by
  unfold Obligations.CtrInitCompletes
  exact fun i f cfg key counter iv c s hi hc hk hlen =>
    exec_init_installs hc hi hk (initialChain_ctr_eq_value hlen iv) s

/-- Settles O22: the chain value of CBC, CFB and OFB is the IV. -/
theorem ivModeInitCompletes : Obligations.IvModeInitCompletes := by
  unfold Obligations.IvModeInitCompletes
  exact fun i f cfg md key iv ctr c s hi hmd hc hk hlen =>
    exec_init_installs hc hi hk (initialChain_iv_eq_value hmd hlen ctr) s

/-- Settles O23, over the outcomes of INIT: the two errors are the two checks of a well-formed INIT. -/
theorem initSucceedsExactlyWhenWellFormed : Obligations.InitSucceedsExactlyWhenWellFormed := by
  unfold Obligations.InitSucceedsExactlyWhenWellFormed
  intro i f cfg md key iv ctr s hi
  obtain ⟨c, hc⟩ := resolve_of_init hi
  have hraise (st : Status) (hst : st ≠ .ok) := raise_responses_ne_ok (s := s) hst none
  have hdone (chain0 : Option Bytes) := (initDone_respondedWith f cfg md c key chain0 s).1
  rw [exec_init hi, wellFormed_init_iff hi hc]
  rcases initContext_cases hc md key iv ctr s with
    ⟨hk, e⟩ | ⟨_, hchain, e⟩ | ⟨hk, hchain, e⟩ | ⟨b, hk, hchain, e⟩
  · exact ⟨_, e, iff_of_false (fun h => hk h.1) (hraise .invalidKeyLength (by decide))⟩
  · exact ⟨_, e, iff_of_false (fun h => h.2 hchain) (hraise .missingChainValue (by decide))⟩
  · exact ⟨_, e, iff_of_true ⟨hk, by simp [hchain]⟩ (hdone none)⟩
  · exact ⟨_, e, iff_of_true ⟨hk, by simp [hchain]⟩ (hdone (some b))⟩

/-! ### The start of a run, and the idle engine -/

/-- Settles O2: at the start there is no context to be illegal, and no response. -/
theorem runStartIsLegal : Obligations.RunStartIsLegal := by
  unfold Obligations.RunStartIsLegal
  intro commands maxBlocks hbound
  have hcontext : contextLegal (runStart commands maxBlocks) := fun (hv : 0#1 = 1#1) => absurd hv (by decide)
  have hresponses : (runStart commands maxBlocks).responses = [] := rfl
  exact ⟨hcontext, by simp [hresponses], hbound⟩

/-- Settles O7, by the idle step. -/
theorem idleStepChangesNothing : Obligations.IdleStepChangesNothing := by
  unfold Obligations.IdleStepChangesNothing
  exact fun s => step_of_idle

/-! ### Runs, from what their steps keep -/

/-- Two runs of as many steps whose steps go on side by side and keep a relation: so do the runs. -/
theorem runs_keep_relation {M : Host.Core} {R : M.State → M.State → Prop}
    (hstep : ∀ s u, R s u → ∃ t v, M.step s = .next t ∧ M.step u = .next v ∧ R t v) (k : Nat) {s u : M.State}
    (h : R s u) : ∃ t v, M.run k s = .next t ∧ M.run k u = .next v ∧ R t v := by
  induction k generalizing s u with
  | zero => exact ⟨s, u, rfl, rfl, h⟩
  | succ k ih =>
    obtain ⟨s', u', hs, hu, h'⟩ := hstep s u h
    rw [run_succ M hs, run_succ M hu]
    exact ih h'

/-- A run whose steps go on and keep an invariant goes on and keeps it. -/
theorem run_keeps_invariant {M : Host.Core} {P : M.State → Prop}
    (hstep : ∀ s, P s → ∃ t, M.step s = .next t ∧ P t) (k : Nat) {s : M.State} (h : P s) :
    ∃ t, M.run k s = .next t ∧ P t := by
  have hboth (s u : M.State) : P s ∧ P u → ∃ t v, M.step s = .next t ∧ M.step u = .next v ∧ P t ∧ P v := by
    rintro ⟨hs, hu⟩
    obtain ⟨t, ht, hPt⟩ := hstep s hs
    obtain ⟨v, hv, hPv⟩ := hstep u hu
    exact ⟨t, v, ht, hv, hPt, hPv⟩
  obtain ⟨t, _, ht, _, hPt, _⟩ := runs_keep_relation hboth k ⟨h, h⟩
  exact ⟨t, ht, hPt⟩

/-! ### One response for each command issued -/

/-- Every command that completes has responded, and left the rest of the host's side alone. -/
theorem exec_respondedWith {i : Instr} {s t : State} (h : exec i s = .next t) :
    ∃ code dout, respondedWith s t code dout := by
  rcases exec_next h with ⟨st, _, rfl⟩ | ⟨f, cfg, md, key, _, _, c, chain0, _, _, rfl, _⟩ | ⟨x, chain, dout, _, rfl⟩
  · exact ⟨_, _, raise_respondedWith s st⟩
  · exact ⟨_, _, initDone_respondedWith f cfg md c key chain0 s⟩
  · exact ⟨_, _, cryptDone_respondedWith x.mode chain dout s⟩

/-- A step with a command issued takes it off the host's list and gives one response. -/
theorem step_respondedWith {s t : State} {tr : Transaction} {rest : List Transaction} (hp : s.pending = tr :: rest)
    (h : step s = .next t) : ∃ code dout, respondedWith { s with pending := rest } t code dout := by
  cases hd : decode tr with
  | instr i => exact exec_respondedWith ((step_of_instr hp hd).symm.trans h)
  | rejected r =>
    obtain rfl := Host.Outcome.next.inj ((step_of_rejected hp hd).symm.trans h)
    exact ⟨_, _, raise_respondedWith _ _⟩

/-- A run of as many steps as commands are issued, if it goes on, runs all of them, with one response each. -/
theorem run_answers_all {s t : State} (h : Host.Core.run Sys2Proof.core s.pending.length s = .next t) :
    t.pending = [] ∧ t.responses.length = s.responses.length + s.pending.length := by
  generalize hl : s.pending = commands at h
  induction commands generalizing s with
  | nil =>
    cases h
    exact ⟨hl, rfl⟩
  | cons tr rest ih =>
    cases hs : step s with
    | next s' =>
      obtain ⟨_, _, hresp, hpend, _⟩ := step_respondedWith hl hs
      rw [List.length_cons, run_succ Sys2Proof.core hs] at h
      obtain ⟨hnil, hlen⟩ := ih hpend h
      exact ⟨hnil, by simp [hlen, hresp, Nat.add_assoc, Nat.add_comm 1]⟩
    | fault r => simp [Host.Core.run, Sys2Proof.core, hs] at h
    | refused r => simp [Host.Core.run, Sys2Proof.core, hs] at h

/-! ### From a legal state -/

theorem context?_of_contextLegal {s : State} (h : contextLegal s) (hv : s.valid ≠ 0#1) : ∃ x, s.context? = some x := by
  obtain ⟨c, md, hc, hm, _⟩ := h ((BitVec.eq_zero_or_eq_one s.valid).resolve_left hv)
  exact ⟨_, context?_eq_some_iff.2 ⟨hv, c, md, hc, hm, rfl⟩⟩

/-- ENCRYPT and DECRYPT complete where a context that exists is legal: the guarded read then gives it. -/
theorem cryptMessage_goesOn {s : State} (h : contextLegal s) (dir : Direction) (din : Bytes) :
    goesOn (cryptMessage dir din s) := by
  rcases cryptMessage_cases dir din s with
    ⟨_, e⟩ | ⟨hv, hnone, _⟩ | ⟨_, _, _, e⟩ | ⟨_, _, _, _, _, _, _, e⟩
  · exact ⟨_, e⟩
  · obtain ⟨x, hx⟩ := context?_of_contextLegal h hv
    simp [hnone] at hx
  · exact ⟨_, e⟩
  · exact ⟨_, e⟩

/-- Every command completes where a context that exists is legal (R251). -/
theorem exec_goesOn {s : State} (h : contextLegal s) (i : Instr) : goesOn (exec i s) := by
  rcases instr_cases i with ⟨f, cfg, md, key, iv, ctr, hi⟩ | ⟨din, rfl⟩ | ⟨din, rfl⟩
  · rcases exec_init_outcome hi with ⟨_, _, herr⟩ | ⟨_, _, _, hok⟩
    · exact ⟨_, herr s⟩
    · exact ⟨_, hok s⟩
  · exact cryptMessage_goesOn h .enc din
  · exact cryptMessage_goesOn h .dec din

theorem step_goesOn {s : State} (h : contextLegal s) : goesOn (step s) := by
  rcases step_cases s with ⟨_, e⟩ | ⟨_, _, _, _, _, e⟩ | ⟨_, rest, i, _, _, e⟩
  · exact ⟨_, e⟩
  · exact ⟨_, e⟩
  · rw [e]
    exact exec_goesOn (s := { s with pending := rest }) h i

/-- A legal state steps to a legal state. -/
theorem step_legal {s : State} (h : legal s) : ∃ t, step s = .next t ∧ legal t := by
  have ⟨hcontext, _⟩ := h
  obtain ⟨t, ht⟩ := step_goesOn hcontext
  exact ⟨t, ht, everyStepKeepsLegal s t h ht⟩

/-- Settles O5: legality is the invariant by which the run goes on, and a run that goes on answers every command. -/
theorem issuedCommandsAllComplete : Obligations.IssuedCommandsAllComplete := by
  unfold Obligations.IssuedCommandsAllComplete
  intro s hs
  obtain ⟨t, ht, hlegal⟩ := run_keeps_invariant (M := Sys2Proof.core) (fun _ => step_legal) s.pending.length hs
  obtain ⟨hnil, hlen⟩ := run_answers_all ht
  exact ⟨t, ht, hnil, hlen, hlegal⟩

/-! ### Two states that no command tells apart -/

/-- Two states have no context, or read the same one but for the chain in ECB, which holds no value there and
differs with the free values (10_state.md R26, R34). -/
def sameReading (s u : State) : Prop :=
  (s.valid = 0#1 ∧ u.valid = 0#1) ∨
    ∃ x chain', s.context? = some x ∧ u.context? = some { x with chain := chain' } ∧ (x.mode ≠ .ecb → chain' = x.chain)

/-- Two states agree on the host's side, and on what commands read. -/
def indistinguishable (s u : State) : Prop :=
  u.responses = s.responses ∧ u.pending = s.pending ∧ u.maxBlocks = s.maxBlocks ∧ sameReading s u

/-- The same response in both states leaves them indistinguishable if it leaves them the same reading. -/
theorem indistinguishable_of_respondedWith {s u t v : State} (h : indistinguishable s u) {code : BitVec 3}
    {dout : Option Bytes} (ht : respondedWith s t code dout) (hv : respondedWith u v code dout)
    (hread : sameReading t v) : indistinguishable t v := by
  obtain ⟨hresp, hpend, hmax, _⟩ := h
  obtain ⟨hresp₁, hpend₁, hmax₁⟩ := ht
  obtain ⟨hresp₂, hpend₂, hmax₂⟩ := hv
  exact ⟨by rw [hresp₁, hresp₂, hresp], by rw [hpend₁, hpend₂, hpend], by rw [hmax₁, hmax₂, hmax], hread⟩

theorem indistinguishable_raise {s u : State} (h : indistinguishable s u) (st : Status) :
    indistinguishable (s.raise st) (u.raise st) :=
  have ⟨_, _, _, hread⟩ := h
  indistinguishable_of_respondedWith h (raise_respondedWith s st) (raise_respondedWith u st) hread

theorem indistinguishable_issued {s u : State} (h : indistinguishable s u) (rest : List Transaction) :
    indistinguishable { s with pending := rest } { u with pending := rest } :=
  have ⟨hresp, _, hmax, hread⟩ := h
  ⟨hresp, rfl, hmax, hread⟩

/-- The two outcomes are next states that no command tells apart. -/
def sameNext (o o' : Result) : Prop := ∃ t v, o = .next t ∧ o' = .next v ∧ indistinguishable t v

/-! ### Commands in two such states -/

/-- The output of a context over a message does not depend on the chain in ECB. -/
theorem outBlock_eq_of_chain {x : Context} {chain' : Bytes} (h : x.mode ≠ .ecb → chain' = x.chain) (dir : Direction)
    (din : Bytes) (j : Nat) :
    outBlock (x.step dir) x.conf.Bb din chain' j = outBlock (x.step dir) x.conf.Bb din x.chain j := by
  by_cases hm : x.mode = .ecb
  · cases dir <;> rw [outBlock, outBlock, Context.step, hm] <;> rfl
  · rw [h hm]

/-- A context that runs over a message from two chains that it does not tell apart gives one output, and chains
that it does not tell apart. -/
theorem ran_indistinguishable {s u t v : State} {x : Context} {chain' din dout dout' : Bytes} {dir : Direction}
    (h : indistinguishable s u) (hx : s.context? = some x) (hfit : messageFits s x.conf.Bb din.length)
    (heq : x.mode ≠ .ecb → chain' = x.chain) (ht : ran x dir s t din dout)
    (hv : ran { x with chain := chain' } dir u v din dout') : indistinguishable t v := by
  obtain ⟨⟨hresp, hlen, _⟩, hctx, hblk⟩ := ht
  obtain ⟨⟨hresp', hlen', _⟩, hctx', hblk'⟩ := hv
  have hdin := length_eq_of_messageFits hfit
  obtain rfl : dout' = dout :=
    eq_of_blockAt_eq (resolve_Bb_pos (context?_resolve hx)) (hlen'.trans hdin) (hlen.trans hdin) fun j hj =>
      (hblk' j hj).trans ((outBlock_eq_of_chain heq dir din j).trans (hblk j hj).symm)
  refine indistinguishable_of_respondedWith h hresp hresp' (.inr ⟨_, _, hctx, hctx', fun hm => ?_⟩)
  rw [heq hm]

theorem cryptMessage_of_not_messageFits {s : State} {x : Context} {din : Bytes} (hx : s.context? = some x)
    (h : ¬ messageFits s x.conf.Bb din.length) (dir : Direction) :
    cryptMessage dir din s = .next (s.raise .invalidLength) := by
  have hinvalid : lengthInvalid s.maxBlocks x.conf.Bb din.length = true :=
    Bool.not_eq_false _ ▸ fun e => h (lengthInvalid_eq_false_iff.1 e)
  simp [cryptMessage, context?_valid hx, hx, hinvalid]

theorem cryptMessage_of_invalid {s : State} (h : s.valid = 0#1) (dir : Direction) (din : Bytes) :
    cryptMessage dir din s = .next (s.raise .notInitialized) := by simp [cryptMessage, h]

theorem cryptMessage_sameNext {s u : State} (h : indistinguishable s u) (dir : Direction) (din : Bytes) :
    sameNext (cryptMessage dir din s) (cryptMessage dir din u) := by
  have ⟨_, _, hmax, hread⟩ := h
  rcases hread with ⟨hs, hu⟩ | ⟨x, chain', hx, hx', heq⟩
  · exact ⟨_, _, cryptMessage_of_invalid hs dir din, cryptMessage_of_invalid hu dir din, indistinguishable_raise h _⟩
  · by_cases hfit : messageFits s x.conf.Bb din.length
    · obtain ⟨t, dout, ht, hran⟩ := cryptMessage_ran hx hfit dir
      obtain ⟨v, dout', hv, hran'⟩ := cryptMessage_ran hx' ((messageFits_congr hmax).2 hfit) dir
      exact ⟨t, v, ht, hv, ran_indistinguishable h hx hfit heq hran hran'⟩
    · exact ⟨_, _, cryptMessage_of_not_messageFits hx hfit dir,
        cryptMessage_of_not_messageFits hx' (mt (messageFits_congr hmax).1 hfit) dir, indistinguishable_raise h _⟩

/-- Every command does the same to the host in both states: an INIT raises one error or installs one context, and
ENCRYPT and DECRYPT run the same context. -/
theorem exec_sameNext {s u : State} (h : indistinguishable s u) (i : Instr) : sameNext (exec i s) (exec i u) := by
  rcases instr_cases i with ⟨f, cfg, md, key, iv, ctr, hi⟩ | ⟨din, rfl⟩ | ⟨din, rfl⟩
  · rcases exec_init_outcome hi with ⟨st, _, herr⟩ | ⟨c, chain0, _, hok⟩
    · exact ⟨_, _, herr s, herr u, indistinguishable_raise h st⟩
    · have hs := initDone_respondedWith f cfg md c key chain0 s
      have hu := initDone_respondedWith f cfg md c key chain0 u
      obtain ⟨x, chain', hx, hx', heq, _⟩ := contexts_of_init (hok s) (hok u) hs.1
      exact ⟨_, _, hok s, hok u, indistinguishable_of_respondedWith h hs hu (.inr ⟨x, chain', hx, hx', heq⟩)⟩
  · exact cryptMessage_sameNext h .enc din
  · exact cryptMessage_sameNext h .dec din

theorem step_sameNext {s u : State} (h : indistinguishable s u) : sameNext (step s) (step u) := by
  have ⟨_, hpend, _⟩ := h
  rcases step_cases s with ⟨hp, e⟩ | ⟨tr, rest, r, hp, hd, e⟩ | ⟨tr, rest, i, hp, hd, e⟩
  · exact ⟨s, u, e, step_of_idle (hpend.trans hp), h⟩
  · exact ⟨_, _, e, step_of_rejected (hpend.trans hp) hd,
      indistinguishable_raise (indistinguishable_issued h rest) (rejectStatus r)⟩
  · rw [e, step_of_instr (hpend.trans hp) hd]
    exact exec_sameNext (indistinguishable_issued h rest) i

/-- Settles O38: without a context the two states are indistinguishable, and their steps keep them so. -/
theorem runResponsesDependOnlyOnCommands : Obligations.RunResponsesDependOnlyOnCommands := by
  unfold Obligations.RunResponsesDependOnlyOnCommands
  intro s u hs hu hpend hmax hresp
  have hstart : indistinguishable s u := ⟨hresp.symm, hpend.symm, hmax.symm, .inl ⟨hs, hu⟩⟩
  obtain ⟨t, v, ht, hv, hsame, _⟩ :=
    runs_keep_relation (M := Sys2Proof.core) (fun _ _ => step_sameNext) s.pending.length hstart
  exact ⟨t, v, ht, hpend ▸ hv, hsame.symm, (run_answers_all ht).2⟩

end Sys2Proof.Machine

/-! PROOFS. The statuses a command can be answered with, the command word and its operands checked in the order of
R247, and the statements of 60_exceptions.md. -/

namespace Sys2Proof.Machine

/-! ### Responses by their status -/

theorem statusCode_injective : Function.Injective statusCode := by
  intro st st' h
  cases st <;> cases st' <;> cases h <;> rfl

/-- A response with one status is no response with another, whatever the data. -/
theorem respond_responses_ne {s : State} {st st' : Status} (h : st ≠ st') (d d' : Option Bytes) :
    (s.respond st d).responses ≠ s.responses ++ [{ status := statusCode st', dout := d' }] := by
  have hcode : statusCode st ≠ statusCode st' := statusCode_injective.ne h
  simp [hcode]

theorem initDone_responses (f : Family) (cfg : BitVec 4) (md : Mode) (c : Configuration) (key : Bytes)
    (chain0 : Option Bytes) (s : State) :
    (initDone f cfg md c key chain0 s).responses = (s.respond .ok none).responses := rfl

theorem cryptDone_responses (md : Mode) (chain dout : Bytes) (s : State) :
    (cryptDone md chain dout s).responses = (s.respond .ok (some dout)).responses := by simp [cryptDone]

/-- A command that completes has raised an error, or has responded OK (R248). -/
theorem exec_raise_or_ok {i : Instr} {s t : State} (h : exec i s = .next t) :
    (∃ st, t = s.raise st) ∨ ∃ dout, respondedWith s t 0#3 dout := by
  rcases exec_next h with ⟨st, _, rfl⟩ | ⟨f, cfg, md, key, _, _, c, chain0, _, _, rfl, _⟩ | ⟨x, chain, dout, _, rfl⟩
  · exact .inl ⟨st, rfl⟩
  · exact .inr ⟨_, initDone_respondedWith f cfg md c key chain0 s⟩
  · exact .inr ⟨_, cryptDone_respondedWith x.mode chain dout s⟩

/-- A step that runs a command has taken it off the host's list, and then raised an error or responded OK. -/
theorem step_raise_or_ok {s s' : State} {t : Transaction} {rest : List Transaction} (hp : s.pending = t :: rest)
    (h : step s = .next s') :
    (∃ st, s' = State.raise { s with pending := rest } st) ∨
      ∃ dout, respondedWith { s with pending := rest } s' 0#3 dout := by
  cases hd : decode t with
  | instr i => exact exec_raise_or_ok ((step_of_instr hp hd).symm.trans h)
  | rejected r => exact .inl ⟨_, (Host.Outcome.next.inj ((step_of_rejected hp hd).symm.trans h)).symm⟩

/-- Settles O18: of the two ways a step with a command ends, the error adds its response and nothing else. -/
theorem errorChangesNothingElse : Obligations.ErrorChangesNothingElse := by
  unfold Obligations.ErrorChangesNothingElse
  intro s s' t rest hp h
  rcases step_raise_or_ok hp h with ⟨st, rfl⟩ | ⟨dout, hresp, hpend, _⟩
  · exact ⟨_, rfl, rfl, fun _ => rfl⟩
  · exact ⟨_, hresp, hpend, fun hne => absurd rfl hne⟩

/-- Settles O4, by the context alone: a legal one gives every command what it reads. -/
theorem legalStateStepsOn : Obligations.LegalStateStepsOn := by
  unfold Obligations.LegalStateStepsOn
  rintro s ⟨hcontext, _⟩
  exact step_goesOn hcontext

/-! ### Rejected command words -/

/-- Settles O12, by the words that the decoder rejects as illegal. -/
theorem reservedWordRespondsIllegalCommand : Obligations.ReservedWordRespondsIllegalCommand := by
  unfold Obligations.ReservedWordRespondsIllegalCommand
  intro s t rest hp hword
  obtain ⟨hillegal, _⟩ := decoderRejectsExactlyReservedWords t
  exact step_of_rejected hp (hillegal.2 hword)

theorem cryptMessage_ne_unsupported {dir : Direction} {din : Bytes} {s t : State}
    (h : cryptMessage dir din s = .next t) (d : Option Bytes) :
    t.responses ≠ s.responses ++ [{ status := statusCode .unsupportedConfiguration, dout := d }] := by
  rcases cryptMessage_cases dir din s with
    ⟨_, e⟩ | ⟨_, _, e⟩ | ⟨_, _, _, e⟩ | ⟨x, chain, dout, _, _, _, _, e⟩ <;> cases e.symm.trans h
  · exact respond_responses_ne (by decide) none d
  · exact respond_responses_ne (by decide) none d
  · rw [cryptDone_responses]
    exact respond_responses_ne (by decide) (some dout) d

/-- No command that decodes is answered UnsupportedConfiguration: the selectors of an INIT resolve (R241). -/
theorem exec_ne_unsupported {i : Instr} {s t : State} (h : exec i s = .next t) (d : Option Bytes) :
    t.responses ≠ s.responses ++ [{ status := statusCode .unsupportedConfiguration, dout := d }] := by
  rcases instr_cases i with ⟨f, cfg, md, key, iv, ctr, hi⟩ | ⟨din, rfl⟩ | ⟨din, rfl⟩
  · obtain ⟨c, hc⟩ := resolve_of_init hi
    rw [exec_init hi] at h
    rcases initContext_cases hc md key iv ctr s with
      ⟨_, e⟩ | ⟨_, _, e⟩ | ⟨_, _, e⟩ | ⟨_, _, _, e⟩ <;> cases e.symm.trans h <;>
      exact respond_responses_ne (by decide) none d
  · exact cryptMessage_ne_unsupported h d
  · exact cryptMessage_ne_unsupported h d

/-- Settles O13: the words that the decoder rejects for their configuration, and no others. -/
theorem unpublishedPairRespondsUnsupported : Obligations.UnpublishedPairRespondsUnsupported := by
  unfold Obligations.UnpublishedPairRespondsUnsupported
  refine ⟨fun s t rest hp hop hres hmode hcfg => ?_, fun i s t d h => exec_ne_unsupported h d⟩
  obtain ⟨_, hunsupported, _⟩ := decoderRejectsExactlyReservedWords t
  exact step_of_rejected hp (hunsupported.2 ⟨hop, hres, hmode, hcfg⟩)

/-! ### INIT whose checks fail -/

theorem requiredBlock_eq_missing_iff {Bb : Nat} {o : Option Bytes} :
    requiredBlock Bb o = .missing ↔ ∀ v, o = some v → v.length ≠ Bb := by
  cases o <;> simp [requiredBlock]

section Failing
variable {i : Instr} {f : Family} {cfg : BitVec 4} {md : Mode} {key : Bytes} {iv ctr : Option Bytes}
  {c : Configuration} (hi : commandFields i = .init f cfg md key iv ctr) (hc : resolve f cfg = some c)
include hi hc

theorem exec_init_of_wrong_key (hk : key.length ≠ c.Kb) (s : State) :
    exec i s = .next (s.raise .invalidKeyLength) := by
  simp [exec_init hi, initContext, hc, hk]

theorem exec_init_of_missing (hk : key.length = c.Kb) (hchain : initialChain md c.Bb iv ctr = .missing) (s : State) :
    exec i s = .next (s.raise .missingChainValue) := by
  simp [exec_init hi, initContext, hc, hk, hchain]

end Failing

/-- Settles O14: the key length is the first check of an INIT whose selectors resolve. -/
theorem wrongKeyLengthRespondsInvalidKeyLength : Obligations.WrongKeyLengthRespondsInvalidKeyLength := by
  unfold Obligations.WrongKeyLengthRespondsInvalidKeyLength
  exact fun i f cfg md key iv ctr c s hi hc hk => exec_init_of_wrong_key hi hc hk s

/-- An INIT in ECB finds no chain operand missing, so it is never answered so (R243). -/
theorem exec_init_ecb_ne_missing {i : Instr} {f : Family} {cfg : BitVec 4} {key : Bytes} {iv ctr : Option Bytes}
    {c : Configuration} (hi : commandFields i = .init f cfg .ecb key iv ctr) (hc : resolve f cfg = some c)
    {s t : State} (h : exec i s = .next t) (d : Option Bytes) :
    t.responses ≠ s.responses ++ [{ status := statusCode .missingChainValue, dout := d }] := by
  by_cases hk : key.length = c.Kb
  · cases (exec_init_of_notRequired hc hi hk rfl s).symm.trans h
    exact respond_responses_ne (by decide) none d
  · cases (exec_init_of_wrong_key hi hc hk s).symm.trans h
    exact respond_responses_ne (by decide) none d

/-- Settles O15, by the chain operand each mode requires: the counter in CTR, the IV in CBC, CFB and OFB, none in
ECB. -/
theorem missingChainOperandRespondsMissingChainValue : Obligations.MissingChainOperandRespondsMissingChainValue := by
  unfold Obligations.MissingChainOperandRespondsMissingChainValue
  intro i f cfg md key iv ctr c s hi hc
  refine ⟨fun hk hmd hctr => ?_, fun hk hmd hiv => ?_, fun hmd t d h => ?_⟩
  · subst hmd
    exact exec_init_of_missing hi hc hk (requiredBlock_eq_missing_iff.2 hctr) s
  · have hmissing : requiredBlock c.Bb iv = .missing := requiredBlock_eq_missing_iff.2 hiv
    rcases hmd with rfl | rfl | rfl <;> exact exec_init_of_missing hi hc hk hmissing s
  · subst hmd
    exact exec_init_ecb_ne_missing hi hc h d

/-! ### ENCRYPT and DECRYPT whose checks fail -/

/-- Settles O16: without a context the two commands fail before they look at the message. -/
theorem cryptWithoutContextRespondsNotInitialized : Obligations.CryptWithoutContextRespondsNotInitialized := by
  unfold Obligations.CryptWithoutContextRespondsNotInitialized
  exact fun s din hv => ⟨cryptMessage_of_invalid hv .enc din, cryptMessage_of_invalid hv .dec din⟩

theorem not_messageFits_iff {s : State} {Bb len : Nat} :
    ¬ messageFits s Bb len ↔ len = 0 ∨ len % Bb ≠ 0 ∨ ∃ most, s.maxBlocks = some most ∧ most < len / Bb := by
  simp only [messageFits, not_and_or, not_forall, exists_prop, not_lt, not_le, Nat.le_zero, ne_eq]

/-- Settles O17: the three ways in which a message does not fit. -/
theorem badLengthRespondsInvalidLength : Obligations.BadLengthRespondsInvalidLength := by
  unfold Obligations.BadLengthRespondsInvalidLength
  intro s x din hx hlen
  have hfit : ¬ messageFits s x.conf.Bb din.length := not_messageFits_iff.2 hlen
  exact ⟨cryptMessage_of_not_messageFits hx hfit .enc, cryptMessage_of_not_messageFits hx hfit .dec⟩

/-! ### The status expected of a command, by the checks of the machine -/

/-- The table of pairs that the statements write out is the one that RESOLVE looks up (30_encoding.md R74). -/
theorem publishedPairs_getElem? (cfg : BitVec 4) : publishedPairs[cfg.toNat]? = pairOf cfg := by
  revert cfg; decide

/-- The pair of a configuration gives its key and block size in bytes (R111). -/
theorem publishedPairs_of_resolve {f : Family} {cfg : BitVec 4} {c : Configuration} (h : resolve f cfg = some c) :
    ∃ K B, publishedPairs[cfg.toNat]? = some (K, B) ∧ K / 8 = c.Kb ∧ B / 8 = c.Bb := by
  obtain ⟨K, B, hpair, rfl⟩ := resolve_eq_some_iff.1 h
  exact ⟨K, B, (publishedPairs_getElem? cfg).trans hpair, rfl, rfl⟩

/-- An operand behind a presence bit is missing where the bit is 0 or the buffer is not one block. -/
theorem requiredBlock_presentWhen_eq_missing_iff {Bb : Nat} {p : BitVec 1} {b : Bytes} :
    requiredBlock Bb (presentWhen p b) = .missing ↔ p.toNat = 0 ∨ b.length ≠ Bb := by
  rw [requiredBlock_eq_missing_iff]
  rcases BitVec.eq_zero_or_eq_one p with rfl | rfl <;> simp [presentWhen]

/-- The chain operand that INIT finds missing, by the number of the mode and the presence bits (R75, R76, R243). -/
theorem initialChain_presentWhen_eq_missing_iff {md : Mode} {Bb : Nat} {ivp ctrp : BitVec 1} {iv ctr : Bytes} :
    initialChain md Bb (presentWhen ivp iv) (presentWhen ctrp ctr) = .missing ↔
      (modeNumber md = 1 ∧ (ctrp.toNat = 0 ∨ ctr.length ≠ Bb)) ∨
        (2 ≤ modeNumber md ∧ (ivp.toNat = 0 ∨ iv.length ≠ Bb)) := by
  cases md with
  | ecb => simp [initialChain, modeNumber]
  | ctr | cbc | cfb | ofb => simp [initialChain, modeNumber, requiredBlock_presentWhen_eq_missing_iff]

/-- A rejected word is expected to be answered with the status of its rejection (R78, R247). -/
theorem expectedStatus_of_rejected {t : Transaction} {r : Reject} (h : decode t = .rejected r) (s : State) :
    expectedStatus s t = (statusCode (rejectStatus r)).toNat := by
  obtain ⟨hillegal, hunsupported, _⟩ := decoderRejectsExactlyReservedWords t
  cases r with
  | illegalCommand =>
    change expectedStatus s t = 6
    rcases hillegal.1 h with hop | ⟨hop, hfields⟩ | ⟨hop, hres⟩
    · simp [expectedStatus, hop]
    · simp only [expectedStatus, hop, if_pos hfields]
      rfl
    · rcases hop with hop | hop <;> simp [expectedStatus, hop, hres]
  | unsupportedConfiguration =>
    change expectedStatus s t = 1
    obtain ⟨hop, hres, hmode, hcfg⟩ := hunsupported.1 h
    have hpair : publishedPairs[t.cmd.toNat / 8 % 16]? = none := List.getElem?_eq_none hcfg
    simp [expectedStatus, hop, hres, hmode, hpair]

/-- An INIT word that decodes: the key length is checked before the chain operand (R247). -/
theorem expectedStatus_of_init {t : Transaction} {md : Mode} {c : Configuration} (hop : opField t.cmd = 0#2)
    (hres : reservedI t.cmd = 0#4) (hm : modeOf (modeField t.cmd) = some md)
    (hc : resolve (familyOf (familyField t.cmd)) (cfgField t.cmd) = some c) (s : State) :
    expectedStatus s t =
      if t.key.length ≠ c.Kb then 2
      else if initialChain md c.Bb (presentWhen (ivpField t.cmd) t.iv) (presentWhen (ctrpField t.cmd) t.ctr) = .missing
        then 3
      else 0 := by
  obtain ⟨K, B, hpair, hK, hB⟩ := publishedPairs_of_resolve hc
  obtain ⟨_, _, hcfg, hmode, hivp, hctrp, _⟩ := field_numbers t.cmd
  have hnum := toNat_eq_modeNumber hm
  have hlt : ¬ 5 ≤ modeNumber md := by cases md <;> decide
  rw [opField_eq_iff] at hop
  rw [reservedI_eq_zero_iff] at hres
  rw [hcfg] at hpair
  rw [hmode] at hnum
  simp only [expectedStatus, initialChain_presentWhen_eq_missing_iff, ite_or, hop, hres, hnum, hpair, hK, hB, hivp,
    hctrp, hlt]
  rfl

/-- A format X word without reserved bits is ENCRYPT or DECRYPT, which look for a context first (R247). -/
theorem expectedStatus_of_invalid {s : State} {t : Transaction} (hcmd : t.cmd.toNat = 1 ∨ t.cmd.toNat = 2)
    (hv : s.valid = 0#1) : expectedStatus s t = 5 := by
  rcases hcmd with h | h <;> simp [expectedStatus, h, hv]

/-- With a context ENCRYPT and DECRYPT check the length alone (R247). -/
theorem expectedStatus_of_context {s : State} {x : Context} {t : Transaction}
    (hcmd : t.cmd.toNat = 1 ∨ t.cmd.toNat = 2) (hx : s.context? = some x) :
    expectedStatus s t = if t.din.length = 0 ∨ t.din.length % x.conf.Bb ≠ 0 ∨
      (∃ most ∈ s.maxBlocks, most < t.din.length / x.conf.Bb) then 4 else 0 := by
  obtain ⟨hv, c, _, hc, _, rfl⟩ := context?_eq_some_iff.1 hx
  obtain ⟨K, B, hpair, _, hB⟩ := publishedPairs_of_resolve hc
  rcases hcmd with h | h <;> simp [expectedStatus, h, hv, hpair, hB]

theorem expectedStatus_of_messageFits {s : State} {x : Context} {t : Transaction}
    (hcmd : t.cmd.toNat = 1 ∨ t.cmd.toNat = 2) (hx : s.context? = some x)
    (hfit : messageFits s x.conf.Bb t.din.length) : expectedStatus s t = 0 := by
  rw [expectedStatus_of_context hcmd hx]
  exact if_neg (mt not_messageFits_iff.2 (not_not.2 hfit))

theorem expectedStatus_of_not_messageFits {s : State} {x : Context} {t : Transaction}
    (hcmd : t.cmd.toNat = 1 ∨ t.cmd.toNat = 2) (hx : s.context? = some x)
    (hfit : ¬ messageFits s x.conf.Bb t.din.length) : expectedStatus s t = 4 := by
  rw [expectedStatus_of_context hcmd hx]
  exact if_pos (not_messageFits_iff.1 hfit)

/-! ### The response of every command -/

/-- From `s` to `s'` one response was given: the status of this number, with data exactly where `data` holds and
the number is that of OK (R79). -/
def answersWith (s s' : State) (status : Nat) (data : Prop) : Prop :=
  ∃ d : Option Bytes, s'.responses = s.responses ++ [{ status := BitVec.ofNat 3 status, dout := d }] ∧
    status < 7 ∧ (d.isSome ↔ status = 0 ∧ data)

theorem answersWith_respond {s s' : State} {st : Status} {d : Option Bytes} {status : Nat} {data : Prop}
    (h : s'.responses = (s.respond st d).responses) (hst : status = (statusCode st).toNat)
    (hd : d.isSome ↔ st = .ok ∧ data) : answersWith s s' status data := by
  subst hst
  have hzero : (statusCode st).toNat = 0 ↔ st = .ok := by
    rw [← statusCode_eq_zero_iff, ← BitVec.toNat_inj]
    rfl
  exact ⟨d, by simpa using h, statusCode_lt_seven st, by rw [hzero, hd]⟩

theorem answersWith_raise {s : State} {st : Status} (hok : st ≠ .ok) {status : Nat}
    (hst : status = (statusCode st).toNat) (data : Prop) : answersWith s (s.raise st) status data :=
  answersWith_respond (d := none) rfl hst (by simp [hok])

/-- An INIT that decodes is answered with the status of its first failing check, or OK, and no data. -/
theorem exec_init_answersWith {i : Instr} {t : Transaction} (hop : opField t.cmd = 0#2) (hd : decodeInit t = .instr i)
    {s s' : State} (h : exec i s = .next s') :
    answersWith s s' (expectedStatus s t) (t.cmd.toNat % 4 ≠ 0) := by
  obtain ⟨hres, md, hm, _, hi⟩ := decodeInit_eq_instr hd
  obtain ⟨c, hc⟩ := resolve_of_init hi
  have hdata : ¬ t.cmd.toNat % 4 ≠ 0 := not_not.2 (opField_eq_iff.1 hop)
  rw [exec_init hi] at h
  rw [expectedStatus_of_init hop hres hm hc]
  rcases initContext_cases hc md t.key _ _ s with
    ⟨hk, e⟩ | ⟨hk, hchain, e⟩ | ⟨hk, hchain, e⟩ | ⟨b, hk, hchain, e⟩ <;> cases e.symm.trans h
  · exact answersWith_raise (by decide) (if_pos hk) _
  · exact answersWith_raise (by decide) (by simp [hk, hchain, statusCode]) _
  · exact answersWith_respond (initDone_responses ..) (by simp [hk, hchain, statusCode]) (by simp [hdata])
  · exact answersWith_respond (initDone_responses ..) (by simp [hk, hchain, statusCode]) (by simp [hdata])

/-- ENCRYPT and DECRYPT are answered with the status of their first failing check, or OK with the output. -/
theorem cryptMessage_answersWith {dir : Direction} {t : Transaction} (hcmd : t.cmd.toNat = 1 ∨ t.cmd.toNat = 2)
    {s s' : State} (h : cryptMessage dir t.din s = .next s') :
    answersWith s s' (expectedStatus s t) (t.cmd.toNat % 4 ≠ 0) := by
  have hdata : t.cmd.toNat % 4 ≠ 0 := by omega
  rcases cryptMessage_cases dir t.din s with
    ⟨hv, e⟩ | ⟨_, _, e⟩ | ⟨x, hx, hfit, e⟩ | ⟨x, chain, dout, hx, hfit, _, _, e⟩ <;> cases e.symm.trans h
  · exact answersWith_raise (by decide) (expectedStatus_of_invalid hcmd hv) _
  · exact answersWith_raise (by decide) (expectedStatus_of_not_messageFits hcmd hx hfit) _
  · exact answersWith_respond (cryptDone_responses ..) (expectedStatus_of_messageFits hcmd hx hfit)
      (by simp [hdata])

/-- Settles O19, by the formats of the command word: a rejected word, an INIT, or ENCRYPT and DECRYPT. Taking the
command off the host's list leaves what `expectedStatus` reads of the state. -/
theorem everyCommandRespondsExpectedStatus : Obligations.EveryCommandRespondsExpectedStatus := by
  unfold Obligations.EveryCommandRespondsExpectedStatus
  intro s s' t rest _ hp h
  change answersWith { s with pending := rest } s' (expectedStatus { s with pending := rest } t) _
  cases hd : decode t with
  | rejected r =>
    obtain rfl := Host.Outcome.next.inj ((step_of_rejected hp hd).symm.trans h)
    exact answersWith_raise (by cases r <;> decide) (expectedStatus_of_rejected hd _) _
  | instr i =>
    rw [step_of_instr hp hd] at h
    rcases decode_eq_instr hd with ⟨hop, hinit⟩ | ⟨hop, hX, rfl⟩ | ⟨hop, hX, rfl⟩
    · exact exec_init_answersWith hop hinit h
    · exact cryptMessage_answersWith (.inl (toNat_eq_of_formatX hop hX)) h
    · exact cryptMessage_answersWith (.inr (toNat_eq_of_formatX hop hX)) h

end Sys2Proof.Machine
